-- ==== Sys2Proof/Word.lean ====
section
/-! DEFINITION. The word types of the VaArchiver CORE (spec/00_scope.md R8, R9, R14; spec/20_memory.md R50). -/

namespace Sys2Proof

/-- A byte of a stream: 8 bits in every space (R50). -/
abbrev Byte := BitVec 8

/-- A stream length or position: `SIZEW = 64` bits, unsigned (R9). -/
abbrev Size := BitVec 64

/-- One count of the frequency table: `CNTW = 32` bits, two's complement (R8). -/
abbrev Count := BitVec 32

end Sys2Proof
end

