-- ==== Sys2Proof/Syntax.lean ====
section
/-! DEFINITION. The instructions of the block: one constructor per row of spec/opcode_table.json (spec/30_encoding.md
R80 to R97). -/

namespace Sys2Proof

/-- The word shapes of the opcode table (R80). The HDR rows have two widths, so HDR is two formats here. -/
inductive Format where
  /-- The 8-bit command word written to CMD (R81). -/
  | cmdw
  /-- The 5-bit phase code (R82). -/
  | phase
  /-- Archive bytes 0..3 as one word, byte 0 in bits 31:24 (R84). -/
  | hdrMagic
  /-- Archive byte 4 (R85). -/
  | hdrFlag
  /-- A node id, 9 bits (R97). -/
  | nodeid
  deriving DecidableEq, Repr

/-- One operation of the block (R11). -/
inductive Instr where
  /-- ARCHIVE (R180). -/
  | archive
  /-- UNARCHIVE (R181). -/
  | unarchive
  /-- IDLE (R197). -/
  | idle
  /-- INIT (R110). -/
  | init
  /-- WR_MAGIC (R183). -/
  | wrMagic
  /-- DECIDE (R184). -/
  | decideMode
  /-- WR_FLAG (R186). -/
  | wrFlag
  /-- FREQ (R111). -/
  | freq
  /-- BUILD (R120). -/
  | build
  /-- SERIALIZE (R135). -/
  | serialize
  /-- CODEGEN (R150). -/
  | codegen
  /-- PACK (R161). -/
  | pack
  /-- COPY_ENC (R188). -/
  | copyEnc
  /-- RD_MAGIC (R190). -/
  | rdMagic
  /-- RD_FLAG (R192). -/
  | rdFlag
  /-- DESERIALIZE (R137). -/
  | deserialize
  /-- UNPACK (R165). -/
  | unpack
  /-- COPY_DEC (R194). -/
  | copyDec
  /-- FINISH (R196). -/
  | finish
  /-- DONE (R197). -/
  | done
  /-- ERROR (R213, R197). -/
  | error
  /-- HDR.MAGIC: the four bytes RD_MAGIC tests, byte 0 in bits 31:24 (R84, R190). -/
  | hdrMagic (m : BitVec 32)
  /-- HDR.FLAG.HUFF: a flag byte with bit 0 set; `rsv` is bits 7:1 (R85, R192). -/
  | hdrFlagHuff (rsv : BitVec 7)
  /-- HDR.FLAG.VERB: a flag byte with bit 0 clear; `rsv` is bits 7:1 (R85, R192). -/
  | hdrFlagVerb (rsv : BitVec 7)
  /-- NODE.TERMINATOR: node id 0 (R97, R169). -/
  | nodeTerminator
  /-- NODE.SYMBOL: node id 1..255 (R97, R165). -/
  | nodeSymbol (sym : BitVec 8)
  /-- NODE.INTERNAL: node id `256 + slot` (R97, R165). -/
  | nodeInternal (slot : BitVec 8)
  deriving DecidableEq, Repr

end Sys2Proof
end

