-- ==== Sys2Proof/WellFormed.lean ====
section
/-! DEFINITION. Which terms of Instr are instructions. The types of the operands carry every check but one: the
row NODE.SYMBOL is node ids 1..255 (spec/30_encoding.md R97), id 0 being the terminator's. -/

namespace Sys2Proof

/-- The instruction is one the table has (R97: a symbol leaf is not id 0). -/
def Instr.wellFormed : Instr → Bool
  | .nodeSymbol sym => sym != 0#8
  | .archive | .unarchive | .idle | .init | .wrMagic | .decideMode | .wrFlag | .freq | .build | .serialize
  | .codegen | .pack | .copyEnc | .rdMagic | .rdFlag | .deserialize | .unpack | .copyDec | .finish | .done | .error
  | .hdrMagic _ | .hdrFlagHuff _ | .hdrFlagVerb _ | .nodeTerminator | .nodeInternal _ => true

end Sys2Proof
end

