-- ==== Sys2Proof/Decode.lean ====
section
/-! DEFINITION. The decoder, the encoder and the phase codes (spec/30_encoding.md R81, R82, R84, R85, R97; the table
spec/opcode_table.json). -/

namespace Sys2Proof

/-- Why a word encodes no instruction. -/
inductive DecodeError where
  /-- A command word other than 0x01 and 0x02: illegal, ignored (R92 (b), R198). -/
  | illegalCommand
  /-- A phase code 19..31: never produced (R82, R92 (c)). -/
  | reservedPhase
  /-- The number has bits above the format's width. -/
  | wordTooWide
  deriving DecidableEq, Repr

/-- What the decoder answers. -/
inductive Decoded where
  | instr (i : Instr)
  | rejected (e : DecodeError)
  deriving DecidableEq, Repr

/-- The width of a format's word, in bits (the table's "width"). -/
def Format.width : Format → Nat
  | .cmdw => 8
  | .phase => 5
  | .hdrMagic => 32
  | .hdrFlag => 8
  | .nodeid => 9

/-- CMDW (R81). -/
def decodeCmdw (w : Nat) : Decoded :=
  if w = 0x01 then .instr .archive
  else if w = 0x02 then .instr .unarchive
  else .rejected .illegalCommand

/-- PHASE (R82). -/
def decodePhase (w : Nat) : Decoded :=
  match w with
  | 0 => .instr .idle
  | 1 => .instr .init
  | 2 => .instr .wrMagic
  | 3 => .instr .decideMode
  | 4 => .instr .wrFlag
  | 5 => .instr .freq
  | 6 => .instr .build
  | 7 => .instr .serialize
  | 8 => .instr .codegen
  | 9 => .instr .pack
  | 10 => .instr .copyEnc
  | 11 => .instr .rdMagic
  | 12 => .instr .rdFlag
  | 13 => .instr .deserialize
  | 14 => .instr .unpack
  | 15 => .instr .copyDec
  | 16 => .instr .finish
  | 17 => .instr .done
  | 18 => .instr .error
  | _ => .rejected .reservedPhase

/-- HDR, the flag byte: bit 0 selects, bits 7:1 are carried along and ignored (R85). -/
def decodeHdrFlag (w : Nat) : Decoded :=
  if w % 2 = 1 then .instr (.hdrFlagHuff (BitVec.ofNat 7 (w / 2)))
  else .instr (.hdrFlagVerb (BitVec.ofNat 7 (w / 2)))

/-- NODEID (R97): bit 8 set is an internal node; of the leaves, id 0 is the terminator. -/
def decodeNodeid (w : Nat) : Decoded :=
  if w = 0 then .instr .nodeTerminator
  else if w < 256 then .instr (.nodeSymbol (BitVec.ofNat 8 w))
  else .instr (.nodeInternal (BitVec.ofNat 8 w))

/-- The decoder: total on every format and number. -/
def decode (f : Format) (w : Nat) : Decoded :=
  if 2 ^ f.width ≤ w then .rejected .wordTooWide
  else match f with
    | .cmdw => decodeCmdw w
    | .phase => decodePhase w
    | .hdrMagic => .instr (.hdrMagic (BitVec.ofNat 32 w))
    | .hdrFlag => decodeHdrFlag w
    | .nodeid => decodeNodeid w

/-- The format of an instruction's word. -/
def Instr.format : Instr → Format
  | .archive | .unarchive => .cmdw
  | .idle | .init | .wrMagic | .decideMode | .wrFlag | .freq | .build | .serialize | .codegen | .pack | .copyEnc
  | .rdMagic | .rdFlag | .deserialize | .unpack | .copyDec | .finish | .done | .error => .phase
  | .hdrMagic _ => .hdrMagic
  | .hdrFlagHuff _ | .hdrFlagVerb _ => .hdrFlag
  | .nodeTerminator | .nodeSymbol _ | .nodeInternal _ => .nodeid

/-- The encoder: the word of an instruction in its format, from the same tables. -/
def encode : Instr → Nat
  | .archive => 0x01
  | .unarchive => 0x02
  | .idle => 0
  | .init => 1
  | .wrMagic => 2
  | .decideMode => 3
  | .wrFlag => 4
  | .freq => 5
  | .build => 6
  | .serialize => 7
  | .codegen => 8
  | .pack => 9
  | .copyEnc => 10
  | .rdMagic => 11
  | .rdFlag => 12
  | .deserialize => 13
  | .unpack => 14
  | .copyDec => 15
  | .finish => 16
  | .done => 17
  | .error => 18
  | .hdrMagic m => m.toNat
  | .hdrFlagHuff rsv => 2 * rsv.toNat + 1
  | .hdrFlagVerb rsv => 2 * rsv.toNat
  | .nodeTerminator => 0
  | .nodeSymbol sym => sym.toNat
  | .nodeInternal slot => 256 + slot.toNat

/-- The value PHASE holds while it names a phase instruction (R82); the pseudocode's `pc <- P` writes it. -/
def Instr.phaseCode (i : Instr) : BitVec 5 := BitVec.ofNat 5 (encode i)

/-- Which format a table word of `nbits` bits is read in. The table gives four shapes words of one byte whose
numbers collide: command words first, then phase codes, then flag bytes (log 8). -/
def tableFormat (nbits w : Nat) : Option Format :=
  match nbits with
  | 5 => some .phase
  | 8 => if w = 1 ∨ w = 2 then some .cmdw else if w ≤ 18 then some .phase else some .hdrFlag
  | 9 => some .nodeid
  | 16 => some .nodeid
  | 32 => some .hdrMagic
  | _ => none

/-- The instruction of a table word (log 8). -/
def decodeTableWord (nbits w : Nat) : Option Instr :=
  match tableFormat nbits w with
  | none => none
  | some f =>
    match decode f w with
    | .instr i => some i
    | .rejected _ => none

end Sys2Proof
end

