-- ==== Sys2Proof/Config.lean ====
section
/-! DEFINITION. The open parameters of the block (spec/00_scope.md R5 to R7, spec/20_memory.md R58) and the free
values of the model. The parameters stand in a field of State that no step changes (log 1); the free values are
constants without a body (log 9, 10, 16). -/

namespace Sys2Proof

/-- `W`, the width of an index field, one of 2, 4, 8 bytes (R6). -/
inductive IdxWidth where
  | two
  | four
  | eight
  deriving DecidableEq, Repr

/-- `IDX_ENDIAN`, the byte order of an index field (R58). -/
inductive Endian where
  | little
  | big
  deriving DecidableEq, Repr

/-- The parameters of one build of the block. -/
structure Config where
  /-- `MAGIC[0]`, first in the stream (R5). -/
  magic0 : Byte
  magic1 : Byte
  magic2 : Byte
  magic3 : Byte
  /-- `W` (R6). -/
  width : IdxWidth
  /-- `CHUNK − 1`: the rule asks `CHUNK ≥ 1` (R7), so the predecessor is what is stored. -/
  chunkPred : Nat
  /-- `IDX_ENDIAN` (R58). -/
  endian : Endian
  deriving DecidableEq, Repr

/-- What a free value is asked for: one name for each thing the spec leaves unspecified, so that no two share a
value. -/
inductive FreeItem where
  | count (i : Nat)
  | left (i : Nat)
  | right (i : Nat)
  | parent (i : Nat)
  | root
  | nextFree
  | codeLen (s : Nat)
  | codeBit (s j : Nat)
  | acc
  | nacc
  | bq
  | nbq
  | cur
  | huff
  | buf (i : Nat)
  | destination
  | hostRead
  deriving DecidableEq, Repr

/-- The free value of one item at one draw (the draw number is the state's `freeCount`). No body: nothing can be
proved of it (log 9, log 10). -/
opaque Config.freeNat : Nat → FreeItem → Nat

/-- What a 64-bit position or length register holds when the exact value does not fit in it: the spec says only
that no stream length overflows it (D7) and gives no value. No body (log 16). -/
opaque Config.beyondSize : Nat → Size

end Sys2Proof
end

