-- ==== Sys2Proof/Machine/State.lean ====
section
/-! DEFINITION. The state of the block as plain data (spec/10_state.md, spec/20_memory.md), the reasons a step can
stop, and the state after reset (R43, R44, R240; log 3 for what the spec leaves unspecified). -/

namespace Sys2Proof.Machine

/-- A byte stream: cells of (position, byte), positions 0, 1, 2, ... (R50). An unlisted position holds no byte
(log 11). -/
abbrev Memory := List Host.Cell

/-- The node table (R20): 512 slots of four fields, and its two companions. Links and `root` are the signed
integers the rules speak of (R22, R24; log 19). -/
structure NodeTable where
  /-- `count[i]` (R21). -/
  count : Vector Count 512
  /-- `left[i]` (R22). -/
  left : Vector Int 512
  /-- `right[i]` (R22). -/
  right : Vector Int 512
  /-- `parent[i]` (R22). -/
  parent : Vector Int 512
  /-- `root` (R24). -/
  root : Int
  /-- `nextFree` (R25). -/
  nextFree : BitVec 10
  deriving DecidableEq, Repr

/-- STATUS (CR1, R34): its four bits; bits 7:4 read 0. -/
structure Status where
  /-- Bit 0. -/
  busy : Bool
  /-- Bit 1. -/
  done : Bool
  /-- Bit 2. -/
  err : Bool
  /-- Bit 3. -/
  huff : Bool
  deriving DecidableEq, Repr

/-- The control registers CR0..CR6 (R31 to R38). -/
inductive CtrlReg where
  | cmd
  | status
  | errcode
  | phase
  | srclen
  | srcpos
  | dstlen
  deriving DecidableEq, Repr

/-- What the outside does to the block (INVENTORY, Host interface; log 5, 6, 7). -/
inductive HostEvent where
  /-- A write of a control register (R33, R36, R253). -/
  | write (r : CtrlReg) (v : Size)
  /-- A read of a control register (R253, U16). -/
  | read (r : CtrlReg)
  /-- A look at one byte of the destination (R57, R66). -/
  | readDst (a : Size)
  /-- The environment binds a source stream (R242). -/
  | bindSource (bytes : List Byte)
  /-- Hardware reset (R240). -/
  | hardReset
  /-- One line of a phase-level program (R93), in any format of the table (log 7), at any PHASE and STATUS (log 26). -/
  | line (f : Format) (w : Nat)
  deriving DecidableEq, Repr

/-- The machine's state. -/
structure State where
  /-- The open parameters (R5 to R7, R58); no step changes them (log 1). -/
  cfg : Config
  /-- The node table (R20 to R25). -/
  nodes : NodeTable
  /-- The code table (R27), bits in root-to-leaf order. -/
  code : Vector (List Bool) 256
  /-- The packer's accumulator (R28). -/
  acc : BitVec 8
  /-- The number of bits in `acc` (R28). -/
  nacc : BitVec 3
  /-- The unpacker's bit queue (R29). -/
  bq : BitVec 8
  /-- The number of bits in `bq` (R29). -/
  nbq : BitVec 4
  /-- The node the tree walk stands at (R29). -/
  cur : Int
  /-- The mode of the current operation (R30). -/
  huff : Bool
  /-- PHASE, CR3 (R31). -/
  phase : BitVec 5
  /-- OP (R32). -/
  op : BitVec 2
  /-- STATUS, CR1 (R34). -/
  status : Status
  /-- ERRCODE, CR2 (R35). -/
  errcode : BitVec 3
  /-- SRCLEN, CR4 (R36). -/
  srclen : Size
  /-- SRCPOS, CR5 (R37). -/
  srcpos : Size
  /-- DSTLEN, CR6 (R38). -/
  dstlen : Size
  /-- The chunk buffer (R40). -/
  buf : List Byte
  /-- The source space SRC (R51). -/
  src : Memory
  /-- The destination space DST (R55). -/
  dst : Memory
  /-- How many bytes of `dst` are delivered for certain (R41, R57; log 12). -/
  delivered : Nat
  /-- How many first bytes of this operation's destination had arrived at the last look at it: what has arrived stays
  (R41; log 28). -/
  shown : Nat
  /-- Both streams are open (R57, R68; log 12). -/
  streamsOpen : Bool
  /-- What a hardware reset left in the destination of the operation it abandoned (R240; log 10). -/
  leftover : Memory
  /-- The environment's coming answers (R68; log 2). -/
  answers : List Bool
  /-- Its answer to every request after those (R68; log 2). -/
  answersAfter : Bool
  /-- The schedule of host events: one entry a step, none where the sequencer moves (log 5). -/
  inputs : List (Option HostEvent)
  /-- What the last host read returned (log 9). -/
  hostData : Option Size
  /-- How many draws of free values there have been (log 9, log 10). -/
  freeCount : Nat
  deriving DecidableEq, Repr

/-- Why the machine stops with a fault. Each is a state no host command reaches (log 14). -/
inductive Fault where
  /-- BUILD scans, or CODEGEN follows a parent link to, a node id outside 0..511 (R20: no such slot). Raised by
  `execBuild` and `execCodegen`. Safe: the model stops. -/
  | nodeIdOutOfRange
  /-- CODEGEN's walk is longer than the 255 bits a code holds (R27, R151), a cycle of parent links included. Raised
  by `execCodegen`. Safe: the model stops. -/
  | codeTooLong
  deriving DecidableEq, Repr

/-- Why the machine gives a step no meaning. -/
inductive Refusal where
  /-- An instruction without a meaning yet (raised by exec's arms only). Safe. -/
  | notModelled (mnemonic : String)
  /-- The sequencer's turn with PHASE at a code 19..31, which is never produced (R82, U14). Raised by `runPhase`.
  Safe. -/
  | reservedPhase
  /-- A phase-level line whose word encodes no instruction (R93, R92). Raised by `runLine`. Safe. -/
  | lineRejected
  /-- The environment changes the source during an operation, which it must not (R246, U21). Raised by
  `bindSource`. Safe: no theorem speaks of such a run. -/
  | sourceChangedWhileBusy
  deriving DecidableEq, Repr

/-- The placeholder parameters of the spec's test vectors with CHUNK = 8 (R5, spec/95_test_vectors.md). DESIGN
CHOICE, log 1: the parameters are open. -/
def placeholderConfig : Config where
  magic0 := 0xAA#8
  magic1 := 0xBB#8
  magic2 := 0xCC#8
  magic3 := 0xDD#8
  width := .two
  chunkPred := 7
  endian := .little

/-- A node table nothing has written. DESIGN CHOICE, log 3: the spec leaves it unspecified. -/
def NodeTable.blank : NodeTable where
  count := Vector.replicate 512 0#32
  left := Vector.replicate 512 (-1)
  right := Vector.replicate 512 (-1)
  parent := Vector.replicate 512 (-1)
  root := -1
  nextFree := 256#10

/-- The machine right after reset. PHASE, OP, STATUS, ERRCODE, SRCLEN, SRCPOS, DSTLEN are the spec's (R43);
everything else is the model's choice (log 1, 2, 3, 5, 12, 28). -/
def State.reset : State where
  cfg := placeholderConfig
  nodes := NodeTable.blank
  code := Vector.replicate 256 []
  acc := 0#8
  nacc := 0#3
  bq := 0#8
  nbq := 0#4
  cur := 0
  huff := false
  phase := 0#5
  op := 0#2
  status := { busy := false, done := false, err := false, huff := false }
  errcode := 0#3
  srclen := 0#64
  srcpos := 0#64
  dstlen := 0#64
  buf := List.replicate 8 0#8
  src := []
  dst := []
  delivered := 0
  shown := 0
  streamsOpen := false
  leftover := []
  answers := []
  answersAfter := true
  inputs := []
  hostData := none
  freeCount := 0

end Sys2Proof.Machine
end

