-- ==== Sys2Proof/Machine/Flags.lean ====
section
/-! DEFINITION. The flags (spec/10_state.md R39): the merged flag (the sign of a count), `huff` and its copy, the
STATUS bits, the mode decision. -/

namespace Sys2Proof.Machine

/-- Node active: present and not merged (R21). -/
def isActive (c : Count) : Bool := 0 < c.toInt

/-- The merged flag: the sign of the count (R21, R39 (a)). -/
def isMerged (c : Count) : Bool := c.toInt < 0

/-- Setting the merged flag keeps the magnitude (R122). -/
def setMerged (c : Count) : Count := -c

/-- STATUS as the host reads it; bits 7:4 are 0 (R34). -/
def Status.toByte (st : Status) : Byte :=
  BitVec.ofNat 8 (st.busy.toNat + 2 * st.done.toNat + 4 * st.err.toNat + 8 * st.huff.toNat)

/-- STATUS from the acceptance of a command (R180). -/
def Status.accepted (st : Status) : Status := { st with busy := true, done := false, err := false }

/-- STATUS when FINISH ends the operation (R196). -/
def Status.finished (st : Status) : Status := { st with busy := false, done := true }

/-- STATUS when an error ends the operation (R213). -/
def Status.failed (st : Status) : Status := { st with err := true, busy := false, done := false }

/-- `huff <- b; STATUS.HUFF <- huff` (R184, R192). -/
def setHuff (b : Bool) (s : State) : State := { s with huff := b, status := { s.status with huff := b } }

/-- The mode decision, in exact integers: `3·SRCLEN > 2·OVERHEAD` with `OVERHEAD = 768·W` (R184, R185). -/
def favorable (srclen widthBytes : Nat) : Bool := 2 * (768 * widthBytes) < 3 * srclen

end Sys2Proof.Machine
end

