-- ==== Sys2Proof/Machine/Operands.lean ====
section
/-! DEFINITION. Operand forms: the parameters as numbers, links and their wire format IDX (spec/30_encoding.md R87,
R88), node ids (R97), the magic word (R84), the flag byte (R85), bit order (spec/20_memory.md R59), register width
(R9). -/

namespace Sys2Proof

/-- `W` in bytes (R6). -/
def IdxWidth.bytes : IdxWidth → Nat
  | .two => 2
  | .four => 4
  | .eight => 8

/-- `CHUNK` (R7). -/
def Config.chunk (c : Config) : Nat := c.chunkPred + 1

/-- `TREE_BYTES = 769·W` (R10). -/
def Config.treeBytes (c : Config) : Nat := 769 * c.width.bytes

/-- The magic in stream order (R5, R84). -/
def Config.magicBytes (c : Config) : List Byte := [c.magic0, c.magic1, c.magic2, c.magic3]

end Sys2Proof

namespace Sys2Proof.Machine

/-- `NONE`, the sentinel (R10, R23). -/
def noNode : Int := -1

/-- `CNT_MAX = 2^31 − 1` (R8). -/
def cntMax : Int := 2147483647

/-- A value that is the id of a node (R97). -/
def isNodeId (v : Int) : Bool := 0 ≤ v && v ≤ 511

/-- The id of an internal slot (R166). -/
def isInternalId (v : Int) : Bool := 256 ≤ v && v ≤ 511

/-- Element `i` of a link field. The callers keep `i` in 0..511. -/
def getLink (v : Vector Int 512) (i : Nat) : Int := (v[i]?).getD noNode

/-- Element `i` of `count`. The callers keep `i` in 0..511. -/
def getCount (v : Vector Count 512) (i : Nat) : Count := (v[i]?).getD 0#32

/-- `code[s]` (R27). -/
def getCode (v : Vector (List Bool) 256) (b : Byte) : List Bool := (v[b.toNat]?).getD []

/-- A register file given by its elements. -/
def tabulate {α : Type} (n : Nat) (f : Nat → α) : Vector α n := ⟨((List.range n).map f).toArray, by simp⟩

/-- `W` bytes of a pattern, least significant first. -/
def leBytes : Nat → Nat → List Byte
  | 0, _ => []
  | k + 1, p => BitVec.ofNat 8 p :: leBytes k (p / 256)

/-- The pattern that bytes spell, least significant first. -/
def leNat : List Byte → Nat
  | [] => 0
  | b :: bs => b.toNat + 256 * leNat bs

/-- A value as the `8W`-bit two's complement pattern (R87). -/
def patternOf (w : IdxWidth) (v : Int) : Nat := (v % (2 ^ (8 * w.bytes) : Nat)).toNat

/-- `sext_8W` (R88, R15). -/
def signedOf (w : IdxWidth) (p : Nat) : Int :=
  if p < 2 ^ (8 * w.bytes - 1) then (p : Int) else (p : Int) - (2 ^ (8 * w.bytes) : Nat)

/-- A field in stream order under IDX_ENDIAN (R58). -/
def inOrder (e : Endian) (bs : List Byte) : List Byte :=
  match e with
  | .little => bs
  | .big => bs.reverse

/-- `IDX(v)` (R87). -/
def idxBytes (w : IdxWidth) (e : Endian) (v : Int) : List Byte := inOrder e (leBytes w.bytes (patternOf w v))

/-- `UNIDX(b)` (R88). -/
def unIdx (w : IdxWidth) (e : Endian) (bs : List Byte) : Int := signedOf w (leNat (inOrder e bs))

/-- The values an index field holds, `−2^(8W−1) .. 2^(8W−1) − 1` (R22, R87). -/
def fitsIdx (w : IdxWidth) (v : Int) : Bool :=
  -((2 ^ (8 * w.bytes - 1) : Nat) : Int) ≤ v && v < (2 ^ (8 * w.bytes - 1) : Nat)

/-- The bits of a byte, most significant first (R59). -/
def byteBits (b : Byte) : List Bool :=
  [b.getLsbD 7, b.getLsbD 6, b.getLsbD 5, b.getLsbD 4, b.getLsbD 3, b.getLsbD 2, b.getLsbD 1, b.getLsbD 0]

/-- The bytes of the HDR.MAGIC word, byte 0 in bits 31:24 (the table's row). -/
def magicWordBytes (m : BitVec 32) : List Byte :=
  [m.extractLsb' 24 8, m.extractLsb' 16 8, m.extractLsb' 8 8, m.extractLsb' 0 8]

/-- Four archive bytes as the HDR.MAGIC word. -/
def magicWord (bs : List Byte) : BitVec 32 :=
  (bs.getD 0 0#8 ++ bs.getD 1 0#8) ++ (bs.getD 2 0#8 ++ bs.getD 3 0#8)

/-- The flag byte that stores `huff`, bits 7:1 written 0 (R85, R186). -/
def flagByte (huff : Bool) : Byte := if huff then 0x01#8 else 0x00#8

/-- A 64-bit position or length register takes an exact value; past 64 bits the register's value is open
(R9, D7; log 16). -/
def narrowSize (n : Nat) : Size := if n < 2 ^ 64 then BitVec.ofNat 64 n else Config.beyondSize n

end Sys2Proof.Machine
end

