-- ==== Sys2Proof/Machine/Ops.lean ====
section
/-! DEFINITION. The named operations every meaning is written over: the streams (spec/20_memory.md R52 to R57), the
environment's answers (R68), the entry of an error (spec/60_exceptions.md R213), the acceptance of a command
(spec/45_format_controller.md R180), and how a phase operation ends. -/

namespace Sys2Proof.Machine

/-! ### Byte streams -/

/-- Cells at consecutive positions from `a`. -/
def cellsFrom : Nat → List Byte → Memory
  | _, [] => []
  | a, b :: bs => (a, b) :: cellsFrom (a + 1) bs

/-- The stream that holds exactly these bytes. -/
def Memory.ofBytes (bs : List Byte) : Memory := cellsFrom 0 bs

/-- The bytes of a stream, in order. -/
def Memory.bytes (m : Memory) : List Byte := m.map (·.2)

/-- The byte at a position; none where nothing is listed (log 11). -/
def Memory.readByte (m : Memory) (a : Nat) : Option Byte := (m.find? (fun c => c.1 == a)).map (·.2)

/-- A stream grown at its end (R55, R56). -/
def Memory.extend (m : Memory) (bs : List Byte) : Memory := m ++ cellsFrom m.length bs

/-- The first `n` bytes of a stream. -/
def Memory.firstBytes (m : Memory) (n : Nat) : Memory := m.take n

/-- The canonical form: positions 0, 1, 2, ... in order, no holes. -/
def Memory.wf (m : Memory) : Bool := m.map (·.1) == List.range m.length

/-! ### The environment's answers (R68) -/

/-- The answer to the next request. -/
def nextAnswer (s : State) : Bool :=
  match s.answers with
  | [] => s.answersAfter
  | b :: _ => b

/-- The answer is used up. -/
def popAnswer (s : State) : State := { s with answers := s.answers.tail }

/-! ### Registers -/

/-- `pc <- P` (R15, R31). -/
def setPc (i : Instr) (s : State) : State := { s with phase := i.phaseCode }

/-- `SRCPOS <- p` (R37, R54; log 16). -/
def setPos (p : Nat) (s : State) : State := { s with srcpos := narrowSize p }

/-- `Finished()` (R53). -/
def finished (s : State) : Bool := s.srclen.toNat ≤ s.srcpos.toNat

/-! ### Taking an error, and leaving it -/

/-- The six errors (R210, R211). -/
inductive ErrCode where
  | formatMismatch
  | insufficientData
  | structuralInconsistency
  | capacityExceeded
  | ioFailure
  | countOverflow
  deriving DecidableEq, Repr

/-- ERRCODE of an error (R211). -/
def errNumber : ErrCode → BitVec 3
  | .formatMismatch => 1#3
  | .insufficientData => 2#3
  | .structuralInconsistency => 3#3
  | .capacityExceeded => 4#3
  | .ioFailure => 5#3
  | .countOverflow => 6#3

/-- The destination is flushed and both streams are released (R57; log 12). -/
def releaseStreams (s : State) : State := { s with delivered := s.dst.length, streamsOpen := false }

/-- `raise X` (R213): ERRCODE, STATUS, flush and release, `pc <- ERROR`, and nothing else. -/
def takeError (x : ErrCode) (s : State) : State :=
  setPc .error { releaseStreams s with errcode := errNumber x, status := s.status.failed }

/-- The acceptance of a command (R180, R181), the only way out of ERROR but a reset (R216); a command while BUSY
has no effect (R198). -/
def acceptCommand (op : BitVec 2) (s : State) : State :=
  if s.status.busy then s
  else setPc .init { s with op := op, status := s.status.accepted, errcode := 0#3 }

/-! ### The course of a phase operation -/

/-- An operation goes on, or has taken an error. -/
inductive Flow where
  | go (s : State)
  | raised (s : State)
  deriving DecidableEq, Repr

/-- `raise X` in the course of an operation: nothing after it runs (R15). -/
def raise (x : ErrCode) (s : State) : Flow := .raised (takeError x s)

/-- What comes after, where no error was taken. -/
def Flow.andThen (r : Flow) (f : State → Flow) : Flow :=
  match r with
  | .go s => f s
  | .raised s => .raised s

/-- The state an operation ends in. -/
def Flow.state (r : Flow) : State :=
  match r with
  | .go s => s
  | .raised s => s

/-- The end of a step that writes no PHASE of its own. -/
def Flow.toOutcome (r : Flow) : Host.Outcome State Fault Refusal := .next r.state

/-- The end of a phase operation: `pc <- P`, or the error it took (R182). -/
def Flow.endPhase (i : Instr) (r : Flow) : Host.Outcome State Fault Refusal :=
  (r.andThen (fun s => .go (setPc i s))).toOutcome

/-! ### The streams -/

/-- `MemRead(addr, n)`: zero past SRCLEN (R52), and past the real end of the source (U21; log 11). -/
def memRead (addr n : Nat) (s : State) : List Byte :=
  (List.range n).map fun k =>
    if addr + k < s.srclen.toNat then (Memory.readByte s.src (addr + k)).getD 0#8 else 0#8

/-- The destination of a new operation: empty, nothing of an earlier operation's (R55, R57, R242). -/
def newDestination (s : State) : State := { s with dst := [], delivered := 0, shown := 0 }

/-- The bytes appended, DSTLEN grown (R56; log 16). -/
def appendBytes (v : List Byte) (s : State) : State :=
  { s with dst := Memory.extend s.dst v, dstlen := narrowSize (s.dstlen.toNat + v.length) }

/-- `MemWrite(DSTLEN, |v|, v)` (R56): one request; where it fails nothing is appended and IOFailure is taken. -/
def memWrite (v : List Byte) (s : State) : Flow :=
  if nextAnswer s then .go (appendBytes v (popAnswer s)) else raise .ioFailure (popAnswer s)

/-- Several MemWrites in order. -/
def memWrites : List (List Byte) → State → Flow
  | [], s => .go s
  | v :: vs, s => (memWrite v s).andThen (memWrites vs)

end Sys2Proof.Machine
end

