-- ==== Sys2Proof/Machine/BitPacker.lean ====
section
/-! DEFINITION. PACK and UNPACK (spec/44_bit_packer.md R160 to R170). -/

namespace Sys2Proof.Machine

/-! ### PACK -/

/-- `acc <- ((acc << 1) | b)[7:0]; nacc <- nacc + 1` (R160). At eight bits `nacc` wraps to 0 in its three bits
(log 20). -/
def shiftIn (b : Bool) (s : State) : State :=
  { s with acc := (s.acc.concat b).setWidth 8, nacc := s.nacc + 1#3 }

/-- `acc <- 0; nacc <- 0` (R160, R161). -/
def clearAcc (s : State) : State := { s with acc := 0#8, nacc := 0#3 }

/-- `AppendBit(b)` (R160). -/
def appendBit (b : Bool) (s : State) : Flow :=
  if s.nacc = 7#3 then (memWrite [(shiftIn b s).acc] (shiftIn b s)).andThen (fun t => .go (clearAcc t))
  else .go (shiftIn b s)

/-- `for b in bits: AppendBit(b)`. -/
def appendBits : List Bool → State → Flow
  | [], s => .go s
  | b :: bs, s => (appendBit b s).andThen (appendBits bs)

/-- The loop of PACK over the source bytes from position `pos` (R161): a byte with an empty code appends nothing
(R163). -/
def packBytes : Nat → List Byte → State → Flow
  | _, [], s => .go s
  | pos, b :: bs, s => (appendBits (getCode s.code b) (setPos (pos + 1) s)).andThen (packBytes (pos + 1) bs)

/-- The terminator's code and the eight zero bits (R161, R162). -/
def packTail (s : State) : Flow :=
  appendBits (getCode s.code 0#8 ++ List.replicate 8 false) s

/-- PACK (R161). -/
def execPack (s : State) : Host.Outcome State Fault Refusal :=
  Flow.endPhase .finish
    ((packBytes 0 (memRead 0 s.srclen.toNat s) (clearAcc (setPos 0 s))).andThen packTail)

/-! ### UNPACK -/

/-- `nbq <- 0; cur <- root` (R165). -/
def startWalk (s : State) : State := { s with nbq := 0#4, cur := s.nodes.root }

/-- A byte fetched when the bit queue is empty, or InsufficientData (R165, R168). -/
def refill (s : State) : Flow :=
  if s.nbq = 0#4 then
    if finished s then raise .insufficientData s
    else .go (setPos (s.srcpos.toNat + 1) { s with bq := (memRead s.srcpos.toNat 1 s).getD 0 0#8, nbq := 8#4 })
  else .go s

/-- The bit at the head of the queue is taken (R165, R59). -/
def dropBit (s : State) : State := { s with bq := s.bq <<< 1, nbq := s.nbq - 1#4 }

/-- `nxt <- (b = 0) ? left[i] : right[i]` (R165). -/
def child (n : NodeTable) (i : Nat) (b : Bool) : Int := getLink (if b then n.right else n.left) i

/-- The walk leaves internal node `i` by one payload bit (R165; the errors R167, R168 in the order of R215 (c)). -/
def descend (i : Nat) (s : State) : Flow :=
  (refill s).andThen fun t =>
    let nxt := child t.nodes i t.bq.msb
    if isNodeId nxt then .go { dropBit t with cur := nxt } else raise .structuralInconsistency (dropBit t)

/-- `cur <- root` (R165). -/
def backToRoot (s : State) : State := { s with cur := s.nodes.root }

/-- A symbol leaf: one byte out, back to the root (R165). -/
def emit (sym : Byte) (s : State) : Flow := (memWrite [sym] s).andThen fun t => .go (backToRoot t)

/-- The loop of UNPACK. The first argument is the number of payload bits left; with none left the loop's next bit is
missing, which is InsufficientData (R168, R170). -/
def walk : Nat → State → Flow
  | 0, s => raise .insufficientData s
  | bits + 1, s =>
    (descend s.cur.toNat s).andThen fun t =>
      if t.cur = 0 then .go t
      else if t.cur < 256 then (emit (BitVec.ofInt 8 t.cur) t).andThen (walk bits)
      else walk bits t

/-- The bits a walk starting at SRCPOS has before it. -/
def payloadBits (s : State) : Nat := 8 * (s.srclen.toNat - s.srcpos.toNat)

/-- UNPACK (R165): the root is tested first (R166). -/
def execUnpack (s : State) : Host.Outcome State Fault Refusal :=
  Flow.endPhase .finish
    (if isInternalId s.nodes.root then walk (payloadBits s) (startWalk s) else raise .structuralInconsistency s)

end Sys2Proof.Machine
end

