-- ==== Sys2Proof/Machine/CodeTable.lean ====
section
/-! DEFINITION. CODEGEN (spec/43_code_table.md R150 to R154). -/

namespace Sys2Proof.Machine

/-- The walk by parent links from node `i`; each step puts its bit in front, which is the rule's list reversed
(R150). The first argument is how many bits a code may still take, 255 in all (R27, R151). -/
def walkUp (n : NodeTable) : Nat → Nat → List Bool → Except Fault (List Bool)
  | fuel, i, bits =>
    if getLink n.parent i = noNode then .ok bits
    else match fuel with
      | 0 => .error .codeTooLong
      | fuel + 1 =>
        if isNodeId (getLink n.parent i) then
          let p := (getLink n.parent i).toNat
          walkUp n fuel p ((getLink n.left p != (i : Int)) :: bits)
        else .error .nodeIdOutOfRange

/-- `code[s]` (R150). -/
def codeOf (n : NodeTable) (s : Nat) : Except Fault (List Bool) := walkUp n 255 s []

/-- The codes of several symbols, in order. -/
def codesOf (n : NodeTable) : List Nat → Except Fault (List (List Bool))
  | [] => .ok []
  | s :: ss =>
    match codeOf n s with
    | .error f => .error f
    | .ok c =>
      match codesOf n ss with
      | .error f => .error f
      | .ok cs => .ok (c :: cs)

/-- CODEGEN (R150). The faults are for tables that INIT and BUILD do not make (R151, R252; log 14). -/
def execCodegen (s : State) : Host.Outcome State Fault Refusal :=
  match codesOf s.nodes (List.range 256) with
  | .error f => .fault f
  | .ok cs => .next (setPc .pack { s with code := tabulate 256 fun i => cs.getD i [] })

end Sys2Proof.Machine
end

