-- ==== Sys2Proof/Machine/Command.lean ====
section
/-! DEFINITION. The host commands ARCHIVE and UNARCHIVE and the resting states IDLE, DONE, ERROR
(spec/45_format_controller.md R180, R181, R197; spec/60_exceptions.md R213, R216). -/

namespace Sys2Proof.Machine

/-- ARCHIVE (R180): accepted unless BUSY (R198). -/
def execArchive (s : State) : Host.Outcome State Fault Refusal := .next (acceptCommand 1#2 s)

/-- UNARCHIVE (R181): accepted unless BUSY (R198). -/
def execUnarchive (s : State) : Host.Outcome State Fault Refusal := .next (acceptCommand 2#2 s)

/-- IDLE (R197): no state changes. -/
def execIdle (s : State) : Host.Outcome State Fault Refusal := .next s

/-- DONE (R197): no state changes. -/
def execDone (s : State) : Host.Outcome State Fault Refusal := .next s

/-- ERROR (R197, R216, R217): the resting state after `raise`; no state changes. -/
def execError (s : State) : Host.Outcome State Fault Refusal := .next s

end Sys2Proof.Machine
end

