-- ==== Sys2Proof/Machine/Frequency.lean ====
section
/-! DEFINITION. INIT and FREQ (spec/40_frequency_analyzer.md R110 to R114). -/

namespace Sys2Proof.Machine

/-- The node table INIT writes (R110): everything absent but the terminator. -/
def initialNodes : NodeTable where
  count := (Vector.replicate 512 0#32).setIfInBounds 0 1#32
  left := Vector.replicate 512 noNode
  right := Vector.replicate 512 noNode
  parent := Vector.replicate 512 noNode
  root := noNode
  nextFree := 256#10

/-- What INIT writes once both streams are open: the start values (R110, R241). -/
def startOperation (s : State) : State :=
  { s with srcpos := 0#64, dstlen := 0#64, streamsOpen := true, nodes := initialNodes }

/-- INIT (R110). The operation's destination is a new, empty one whether or not it opens (R55), so that after a failed
open the outside sees no byte (R57); SRCPOS and DSTLEN are then those of before, since the rule raises before it writes
them (R213; log 23). An OP other than ARCHIVE goes on to RD_MAGIC, as the rule's pseudocode has it (log 18). -/
def execInit (s : State) : Host.Outcome State Fault Refusal :=
  let t := newDestination (popAnswer s)
  Flow.endPhase (if s.op = 1#2 then .wrMagic else .rdMagic)
    (if nextAnswer s then .go (startOperation t) else raise .ioFailure t)

/-- One byte counted; none where the count is at CNT_MAX (R111). -/
def countByte (b : Byte) (c : Vector Count 512) : Option (Vector Count 512) :=
  if (getCount c b.toNat).toInt = cntMax then none
  else some (c.setIfInBounds b.toNat (getCount c b.toNat + 1#32))

/-- The scan of one chunk: it stops at the first zero byte, which is not counted (R111). The flag says that a count
would pass CNT_MAX. -/
def scanChunk : List Byte → Vector Count 512 → Vector Count 512 × Bool
  | [], c => (c, false)
  | b :: bs, c =>
    if b = 0#8 then (c, false)
    else match countByte b c with
      | none => (c, true)
      | some c' => scanChunk bs c'

/-- `buf <- MemRead(SRCPOS, CHUNK); SRCPOS <- SRCPOS + CHUNK`, with SRCPOS at `pos` (R111, R188). -/
def readChunk (pos : Nat) (s : State) : State :=
  setPos (pos + s.cfg.chunk) { s with buf := memRead pos s.cfg.chunk s }

/-- The loop of FREQ from position `pos`. Each pass advances by at least one byte, so the first argument, the number
of bytes left, bounds the passes. -/
def freqLoop : Nat → Nat → State → Flow
  | 0, _, s => .go s
  | fuel + 1, pos, s =>
    if s.srclen.toNat ≤ pos then .go s
    else
      let t := readChunk pos s
      let r := scanChunk t.buf t.nodes.count
      let u := { t with nodes := { t.nodes with count := r.1 } }
      if r.2 then raise .countOverflow u else freqLoop fuel (pos + s.cfg.chunk) u

/-- FREQ (R111). -/
def execFreq (s : State) : Host.Outcome State Fault Refusal :=
  Flow.endPhase .build (freqLoop (s.srclen.toNat - s.srcpos.toNat) s.srcpos.toNat s)

end Sys2Proof.Machine
end

