-- ==== Sys2Proof/Machine/FormatController.lean ====
section
/-! DEFINITION. WR_MAGIC, DECIDE, WR_FLAG, COPY_ENC, COPY_DEC, FINISH, RD_MAGIC, RD_FLAG
(spec/45_format_controller.md R183 to R196). -/

namespace Sys2Proof.Machine

/-- WR_MAGIC (R183). -/
def execWrMagic (s : State) : Host.Outcome State Fault Refusal :=
  Flow.endPhase .decideMode (memWrite s.cfg.magicBytes s)

/-- DECIDE (R184, R185). -/
def execDecideMode (s : State) : Host.Outcome State Fault Refusal :=
  Flow.endPhase .wrFlag (.go (setHuff (favorable s.srclen.toNat s.cfg.width.bytes) s))

/-- WR_FLAG (R186). -/
def execWrFlag (s : State) : Host.Outcome State Fault Refusal :=
  Flow.endPhase (if s.huff then .freq else .copyEnc) (memWrite [flagByte s.huff] s)

/-- What COPY_ENC keeps of a chunk: up to its first zero byte where its last byte is zero, else all of it (R188). -/
def keptOfChunk (buf : List Byte) : List Byte :=
  if buf.getLastD 0#8 = 0#8 then buf.takeWhile (· != 0#8) else buf

/-- `if z > 0: MemWrite(DSTLEN, z, ...)` (R188): nothing to keep makes no request. -/
def writeKept (v : List Byte) (s : State) : Flow := if v = [] then .go s else memWrite v s

/-- The loop of COPY_ENC from position `pos`; the first argument bounds the passes as in FREQ. -/
def copyEncLoop : Nat → Nat → State → Flow
  | 0, _, s => .go s
  | fuel + 1, pos, s =>
    if s.srclen.toNat ≤ pos then .go s
    else
      let t := readChunk pos s
      (writeKept (keptOfChunk t.buf) t).andThen (copyEncLoop fuel (pos + s.cfg.chunk))

/-- COPY_ENC (R188). -/
def execCopyEnc (s : State) : Host.Outcome State Fault Refusal :=
  Flow.endPhase .finish (copyEncLoop (s.srclen.toNat - s.srcpos.toNat) s.srcpos.toNat s)

/-- The loop of COPY_DEC from position `pos`; the first argument bounds the passes as in FREQ. -/
def copyDecLoop : Nat → Nat → State → Flow
  | 0, _, s => .go s
  | fuel + 1, pos, s =>
    if s.srclen.toNat ≤ pos then .go s
    else
      let n := min s.cfg.chunk (s.srclen.toNat - pos)
      (memWrite (memRead pos n s) s).andThen fun t => copyDecLoop fuel (pos + n) (setPos (pos + n) t)

/-- COPY_DEC (R194). -/
def execCopyDec (s : State) : Host.Outcome State Fault Refusal :=
  Flow.endPhase .finish (copyDecLoop (s.srclen.toNat - s.srcpos.toNat) s.srcpos.toNat s)

/-- FINISH (R196): the flush is one request; then both streams are released (R57). -/
def execFinish (s : State) : Host.Outcome State Fault Refusal :=
  Flow.endPhase .done
    (if nextAnswer s then
       .go { releaseStreams (popAnswer s) with status := s.status.finished }
     else raise .ioFailure (popAnswer s))

/-! ### The two selectors of the archive decoder -/

/-- The magic test (R190, R84): byte for byte. -/
def testMagic (m : List Byte) (s : State) : Flow :=
  if m = s.cfg.magicBytes then .go (setPc .rdFlag s) else raise .formatMismatch s

/-- The dispatch on flag bit 0 (R192, R85): `huff`, STATUS.HUFF and the next phase. -/
def dispatchFlag (bit0 : Bool) (s : State) : State :=
  setPc (if bit0 then .deserialize else .copyDec) (setHuff bit0 s)

/-- RD_MAGIC (R190): the length is tested before the bytes (R191, R215 (a)). -/
def execRdMagic (s : State) : Host.Outcome State Fault Refusal :=
  Flow.toOutcome
    (if s.srclen.toNat < 4 then raise .formatMismatch s else testMagic (memRead 0 4 s) (setPos 4 s))

/-- RD_FLAG (R192). -/
def execRdFlag (s : State) : Host.Outcome State Fault Refusal :=
  Flow.toOutcome
    (if s.srclen.toNat < 5 then raise .insufficientData s
     else .go (dispatchFlag (((memRead 4 1 s).getD 0 0#8).getLsbD 0) (setPos 5 s)))

end Sys2Proof.Machine
end

