-- ==== Sys2Proof/Machine/Selector.lean ====
section
/-! DEFINITION. The rows the archive decoder tests: HDR.MAGIC, HDR.FLAG.HUFF, HDR.FLAG.VERB, NODE.TERMINATOR,
NODE.SYMBOL, NODE.INTERNAL (spec/30_encoding.md R96, R97). Each is the one test or the one walk step that RD_MAGIC,
RD_FLAG and UNPACK are made of (log 7). -/

namespace Sys2Proof.Machine

/-- HDR.MAGIC (R190): the four bytes are the magic, or FormatMismatch. -/
def execHdrMagic (m : BitVec 32) (s : State) : Host.Outcome State Fault Refusal :=
  Flow.toOutcome (testMagic (magicWordBytes m) s)

/-- HDR.FLAG.HUFF (R192): Huffman mode, bits 7:1 ignored. -/
def execHdrFlagHuff (_rsv : BitVec 7) (s : State) : Host.Outcome State Fault Refusal :=
  .next (dispatchFlag true s)

/-- HDR.FLAG.VERB (R192): verbatim mode, bits 7:1 ignored. -/
def execHdrFlagVerb (_rsv : BitVec 7) (s : State) : Host.Outcome State Fault Refusal :=
  .next (dispatchFlag false s)

/-- NODE.TERMINATOR (R169): the walk stops; nothing is emitted, the rest is discarded unread. -/
def execNodeTerminator (s : State) : Host.Outcome State Fault Refusal := .next (setPc .finish s)

/-- NODE.SYMBOL (R165): emit the byte, restart at the root. -/
def execNodeSymbol (sym : BitVec 8) (s : State) : Host.Outcome State Fault Refusal :=
  Flow.toOutcome (emit sym s)

/-- NODE.INTERNAL (R165): one payload bit leads to a child of node `256 + slot`. -/
def execNodeInternal (slot : BitVec 8) (s : State) : Host.Outcome State Fault Refusal :=
  Flow.toOutcome (descend (256 + slot.toNat) s)

end Sys2Proof.Machine
end

