-- ==== Sys2Proof/Machine/TreeBuilder.lean ====
section
/-! DEFINITION. BUILD: SelectMin, Merge and the loop (spec/41_tree_builder.md R120 to R128). -/

namespace Sys2Proof.Machine

/-- One step of SelectMin's scan: a candidate replaces the best only if its count is strictly smaller (R121). -/
def betterOf (excl : Option Nat) (best : Option (Nat × Count)) (entry : Count × Nat) : Option (Nat × Count) :=
  if isActive entry.1 && excl != some entry.2 then
    match best with
    | none => some (entry.2, entry.1)
    | some b => if entry.1.toInt < b.2.toInt then some (entry.2, entry.1) else some b
  else best

/-- `SelectMin(excl)` over ids `0..nextFree−1`, increasing (R121). -/
def selectMin (excl : Option Nat) (n : NodeTable) : Option Nat :=
  (((n.count.toList.take n.nextFree.toNat).zipIdx).foldl (betterOf excl) none).map (·.1)

/-- The pair BUILD merges next, if there is one (R120). -/
def selectPair (n : NodeTable) : Option (Nat × Nat) :=
  match selectMin none n with
  | none => none
  | some a =>
    match selectMin (some a) n with
    | none => none
    | some b => some (a, b)

/-- `Merge(a, b)` (R122); none where the sum passes CNT_MAX, with nothing changed. -/
def merge (a b : Nat) (n : NodeTable) : Option NodeTable :=
  let s := (getCount n.count a).toInt + (getCount n.count b).toInt
  let f := n.nextFree.toNat
  if cntMax < s then none
  else some
    { count :=
        ((n.count.setIfInBounds f (BitVec.ofInt 32 s)).setIfInBounds a (setMerged (getCount n.count a))).setIfInBounds
          b (setMerged (getCount n.count b))
      left := n.left.setIfInBounds f a
      right := n.right.setIfInBounds f b
      parent := (n.parent.setIfInBounds a f).setIfInBounds b f
      root := f
      nextFree := n.nextFree + 1#10 }

/-- The loop of BUILD; the first argument is the number of free slots, `512 − nextFree`, so 0 is the rule's
`nextFree = 512` (R120, R124). It answers the table and the error, if any. -/
def buildLoop : Nat → NodeTable → NodeTable × Option ErrCode
  | 0, n =>
    match selectPair n with
    | none => (n, none)
    | some _ => (n, some .capacityExceeded)
  | free + 1, n =>
    match selectPair n with
    | none => (n, none)
    | some (a, b) =>
      match merge a b n with
      | none => (n, some .countOverflow)
      | some n' => buildLoop free n'

/-- The nodes of the state replaced, and the error taken, if any. -/
def storeNodes (r : NodeTable × Option ErrCode) (s : State) : Flow :=
  match r.2 with
  | none => .go { s with nodes := r.1 }
  | some x => raise x { s with nodes := r.1 }

/-- BUILD (R120). A `nextFree` past 512 (R25: never) would scan ids that do not exist (R20): a fault (log 14). -/
def execBuild (s : State) : Host.Outcome State Fault Refusal :=
  if 512 < s.nodes.nextFree.toNat then .fault .nodeIdOutOfRange
  else Flow.endPhase .serialize (storeNodes (buildLoop (512 - s.nodes.nextFree.toNat) s.nodes) s)

end Sys2Proof.Machine
end

