-- ==== Sys2Proof/Machine/TreeCodec.lean ====
section
/-! DEFINITION. SERIALIZE and DESERIALIZE (spec/42_tree_codec.md R135 to R140). -/

namespace Sys2Proof.Machine

/-- The fields of the tree block in order: the triples of slots 256..511, then the root (R86, R135). -/
def treeFields (n : NodeTable) : List Int :=
  ((List.range 256).flatMap fun k =>
    [getLink n.left (256 + k), getLink n.right (256 + k), getLink n.parent (256 + k)]) ++ [n.root]

/-- SERIALIZE (R135): one MemWrite of `W` bytes a field. -/
def execSerialize (s : State) : Host.Outcome State Fault Refusal :=
  Flow.endPhase .codegen (memWrites ((treeFields s.nodes).map (idxBytes s.cfg.width s.cfg.endian)) s)

/-- Field `j` of the tree block that starts at position `pos`: `UNIDX(MemRead(pos + j·W, W))` (R137). -/
def readField (pos j : Nat) (s : State) : Int :=
  unIdx s.cfg.width s.cfg.endian (memRead (pos + j * s.cfg.width.bytes) s.cfg.width.bytes s)

/-- A link field after DESERIALIZE: NONE for leaves, field `3·(n − 256) + k` of the block for slot `n` (R137). -/
def loadedLinks (k pos : Nat) (s : State) : Vector Int 512 :=
  tabulate 512 fun n => if n < 256 then noNode else readField pos (3 * (n - 256) + k) s

/-- The table DESERIALIZE loads; `count` and `nextFree` are not touched (R137). -/
def loadTree (pos : Nat) (s : State) : State :=
  { s with
    nodes :=
      { s.nodes with
        left := loadedLinks 0 pos s, right := loadedLinks 1 pos s, parent := loadedLinks 2 pos s
        root := readField pos 768 s } }

/-- DESERIALIZE (R137): the length is tested before anything is loaded. -/
def execDeserialize (s : State) : Host.Outcome State Fault Refusal :=
  Flow.endPhase .unpack
    (if s.srclen.toNat < s.srcpos.toNat + s.cfg.treeBytes then raise .insufficientData s
     else .go (setPos (s.srcpos.toNat + s.cfg.treeBytes) (loadTree s.srcpos.toNat s)))

end Sys2Proof.Machine
end

