-- ==== Sys2Proof/Machine/Dispatch.lean ====
section
/-! DEFINITION. One arm per instruction of the opcode table. -/

namespace Sys2Proof.Machine

def exec (i : Instr) (s : State) : Host.Outcome State Fault Refusal :=
  match i with
  | .archive => Sys2Proof.Machine.execArchive s
  | .unarchive => Sys2Proof.Machine.execUnarchive s
  | .idle => Sys2Proof.Machine.execIdle s
  | .init => Sys2Proof.Machine.execInit s
  | .wrMagic => Sys2Proof.Machine.execWrMagic s
  | .decideMode => Sys2Proof.Machine.execDecideMode s
  | .wrFlag => Sys2Proof.Machine.execWrFlag s
  | .freq => Sys2Proof.Machine.execFreq s
  | .build => Sys2Proof.Machine.execBuild s
  | .serialize => Sys2Proof.Machine.execSerialize s
  | .codegen => Sys2Proof.Machine.execCodegen s
  | .pack => Sys2Proof.Machine.execPack s
  | .copyEnc => Sys2Proof.Machine.execCopyEnc s
  | .rdMagic => Sys2Proof.Machine.execRdMagic s
  | .rdFlag => Sys2Proof.Machine.execRdFlag s
  | .deserialize => Sys2Proof.Machine.execDeserialize s
  | .unpack => Sys2Proof.Machine.execUnpack s
  | .copyDec => Sys2Proof.Machine.execCopyDec s
  | .finish => Sys2Proof.Machine.execFinish s
  | .done => Sys2Proof.Machine.execDone s
  | .error => Sys2Proof.Machine.execError s
  | .hdrMagic m => Sys2Proof.Machine.execHdrMagic m s
  | .hdrFlagHuff rsv => Sys2Proof.Machine.execHdrFlagHuff rsv s
  | .hdrFlagVerb rsv => Sys2Proof.Machine.execHdrFlagVerb rsv s
  | .nodeTerminator => Sys2Proof.Machine.execNodeTerminator s
  | .nodeSymbol sym => Sys2Proof.Machine.execNodeSymbol sym s
  | .nodeInternal slot => Sys2Proof.Machine.execNodeInternal slot s

end Sys2Proof.Machine
end

