-- ==== Sys2Proof/Machine/Sequencer.lean ====
section
/-! DEFINITION. What the sequencer does at its turn (spec/45_format_controller.md R182), and a line of a phase-level
program (spec/30_encoding.md R93). -/

namespace Sys2Proof.Machine

/-- The sequencer's turn: the operation PHASE names (R31, R182). A code 19..31 is never produced (R82, log 15). -/
def runPhase (s : State) : Host.Outcome State Fault Refusal :=
  match decode .phase s.phase.toNat with
  | .instr i => exec i s
  | .rejected _ => .refused .reservedPhase

/-- One line of a phase-level program (R93), in any format of the table (log 7). DESIGN CHOICE (log 26): the line runs
whatever PHASE and STATUS hold, so also after an earlier line raised and PHASE is ERROR, where it can raise again and
write ERRCODE anew, and also while BUSY. -/
def runLine (f : Format) (w : Nat) (s : State) : Host.Outcome State Fault Refusal :=
  match decode f w with
  | .instr i => exec i s
  | .rejected _ => .refused .lineRejected

end Sys2Proof.Machine
end

