-- ==== Sys2Proof/Machine/HostPort.lean ====
section
/-! DEFINITION. The host interface: writes and reads of CR0..CR6 (spec/10_state.md R31 to R38,
spec/45_format_controller.md R198, spec/70_reset_and_hazards.md R253), the view of the destination (spec/20_memory.md
R57, R66), binding a source (R242), hardware reset (R240). -/

namespace Sys2Proof.Machine

/-! ### Writes -/

/-- A write to CMD (R33): an instruction of format CMDW, or no effect (R198, U15). -/
def writeCmd (w : BitVec 8) (s : State) : Host.Outcome State Fault Refusal :=
  match decode .cmdw w.toNat with
  | .instr i => exec i s
  | .rejected _ => .next s

/-- A write to SRCLEN (R36): ignored while BUSY. -/
def writeSrclen (v : Size) (s : State) : State := if s.status.busy then s else { s with srclen := v }

/-- A write of a control register; the read-only ones take no write (log 17). -/
def writeReg (r : CtrlReg) (v : Size) (s : State) : Host.Outcome State Fault Refusal :=
  match r with
  | .cmd => writeCmd (v.setWidth 8) s
  | .srclen => .next (writeSrclen v s)
  | .status | .errcode | .phase | .srcpos | .dstlen => .next s

/-! ### Reads -/

/-- The state at the end of the phase in progress, which is the one PHASE names. -/
def afterPhase (s : State) : State :=
  match runPhase s with
  | .next t => t
  | .fault _ => s
  | .refused _ => s

/-- A free value between two ends, in either order. -/
def between (a b k : Nat) : Nat := if a ≤ b then a + k % (b - a + 1) else b + k % (a - b + 1)

/-- The value of a register at rest (R31 to R38); a read of CMD is 0 (R33). -/
def regValue (r : CtrlReg) (s : State) : Size :=
  match r with
  | .cmd => 0#64
  | .status => s.status.toByte.setWidth 64
  | .errcode => s.errcode.setWidth 64
  | .phase => s.phase.setWidth 64
  | .srclen => s.srclen
  | .srcpos => s.srcpos
  | .dstlen => s.dstlen

/-- What a read of a register returns (R253, U16): exact, but for SRCPOS, DSTLEN and PHASE while BUSY, which are a
free value between the start and the end of the phase in progress (for PHASE one of the two codes; log 9). -/
def readReg (r : CtrlReg) (s : State) : Size :=
  let k := Config.freeNat s.freeCount .hostRead
  if s.status.busy then
    match r with
    | .srcpos => BitVec.ofNat 64 (between s.srcpos.toNat (afterPhase s).srcpos.toNat k)
    | .dstlen => BitVec.ofNat 64 (between s.dstlen.toNat (afterPhase s).dstlen.toNat k)
    | .phase => regValue .phase (if k % 2 = 0 then s else afterPhase s)
    | .cmd | .status | .errcode | .srclen => regValue r s
  else regValue r s

/-- How many first bytes of the destination have arrived at a look while BUSY: a free number of those appended so far,
counted to the end of the phase in progress (R66; log 9), but never fewer than at the look before, since the writer's
buffer delays bytes and loses none (R41; log 28). -/
def arrivedBytes (s : State) : Nat :=
  let n := (afterPhase s).dst.length
  between (min s.shown n) n (Config.freeNat s.freeCount .hostRead)

/-- The destination as the outside sees it: at rest the bytes delivered (R57); while BUSY the first bytes that have
arrived (R41, R66); after a reset what the abandoned operation left (R240; log 10). DESIGN CHOICE (log 27): in the
middle of a phase-level program run with BUSY = 0, of which the spec says nothing, the outside sees exactly the bytes
delivered, none from INIT until FINISH or an error. -/
def visibleDst (s : State) : Memory :=
  if s.status.busy then Memory.firstBytes (afterPhase s).dst (arrivedBytes s)
  else if s.phase = Instr.idle.phaseCode then s.leftover
  else Memory.firstBytes s.dst s.delivered

/-- A host read leaves its value in `hostData`. -/
def latch (v : Option Size) (s : State) : State := { s with hostData := v, freeCount := s.freeCount + 1 }

/-- A look at one byte of the destination. -/
def readDstByte (a : Size) (s : State) : Option Size :=
  (Memory.readByte (visibleDst s) a.toNat).map (·.setWidth 64)

/-- A look while BUSY keeps how many bytes had arrived at it, which bounds the next look from below (R41). -/
def noteArrived (s : State) : State := if s.status.busy then { s with shown := arrivedBytes s } else s

/-! ### Binding and reset -/

/-- The environment binds a source (R242), not during an operation (R246; log 15). -/
def bindSource (bytes : List Byte) (s : State) : Host.Outcome State Fault Refusal :=
  if s.status.busy then .refused .sourceChangedWhileBusy else .next { s with src := Memory.ofBytes bytes }

/-- The node table after a hardware reset: every field a free value of its width (R43, U11; log 10). -/
def unspecifiedNodes (w : IdxWidth) (f : FreeItem → Nat) : NodeTable where
  count := tabulate 512 fun i => BitVec.ofNat 32 (f (.count i))
  left := tabulate 512 fun i => signedOf w (f (.left i) % 2 ^ (8 * w.bytes))
  right := tabulate 512 fun i => signedOf w (f (.right i) % 2 ^ (8 * w.bytes))
  parent := tabulate 512 fun i => signedOf w (f (.parent i) % 2 ^ (8 * w.bytes))
  root := signedOf w (f .root % 2 ^ (8 * w.bytes))
  nextFree := BitVec.ofNat 10 (256 + f .nextFree % 257)

/-- The code table after a hardware reset: free codes of 0..255 bits (R27, R43; log 10). -/
def unspecifiedCodes (f : FreeItem → Nat) : Vector (List Bool) 256 :=
  tabulate 256 fun s => (List.range (f (.codeLen s) % 256)).map fun j => f (.codeBit s j) % 2 == 1

/-- Every register and table reset leaves unspecified (R43, R44). -/
def unspecified (f : FreeItem → Nat) (s : State) : State :=
  { s with
    nodes := unspecifiedNodes s.cfg.width f
    code := unspecifiedCodes f
    acc := BitVec.ofNat 8 (f .acc), nacc := BitVec.ofNat 3 (f .nacc)
    bq := BitVec.ofNat 8 (f .bq), nbq := BitVec.ofNat 4 (f .nbq % 9)
    cur := signedOf s.cfg.width (f .cur % 2 ^ (8 * s.cfg.width.bytes))
    huff := f .huff % 2 == 1
    buf := (List.range s.cfg.chunk).map fun i => BitVec.ofNat 8 (f (.buf i)) }

/-- The control registers a reset clears (R43, R240). -/
def clearControl (s : State) : State :=
  { s with
    phase := Instr.idle.phaseCode, op := 0#2
    status := { busy := false, done := false, err := false, huff := false }
    errcode := 0#3, srclen := 0#64, srcpos := 0#64, dstlen := 0#64 }

/-- What the destination holds after a reset: where an operation is abandoned, a free number of the bytes appended so
far, counted to the end of the phase in progress, since the reset may land inside it; else what it held (R240, U30;
log 10). -/
def abandonedDst (f : FreeItem → Nat) (s : State) : Memory :=
  if s.status.busy then
    let m := (afterPhase s).dst
    Memory.firstBytes m (f .destination % (m.length + 1))
  else visibleDst s

/-- Hardware reset (R240). -/
def hardReset (s : State) : State :=
  let f := Config.freeNat s.freeCount
  { newDestination (unspecified f (clearControl s)) with
    leftover := abandonedDst f s, streamsOpen := false, freeCount := s.freeCount + 1 }

/-! ### One host event -/

/-- What one event of the outside does (log 5). DESIGN CHOICE (log 26): a phase-level line scheduled while BUSY runs
without a test of BUSY, and so can divert the operation under way. -/
def hostEvent (e : HostEvent) (s : State) : Host.Outcome State Fault Refusal :=
  match e with
  | .write r v => writeReg r v s
  | .read r => .next (latch (some (readReg r s)) s)
  | .readDst a => .next (latch (readDstByte a s) (noteArrived s))
  | .bindSource bytes => bindSource bytes s
  | .hardReset => .next (hardReset s)
  | .line f w => runLine f w s

/-- Where a table word goes so that the next step runs it: a command word is a write to CMD, a phase code is PHASE
itself at the sequencer's turn, a selector word is a line (log 6, log 8). -/
def placeWord (f : Format) (w : Nat) (s : State) : State :=
  match f with
  | .cmdw => { s with inputs := some (.write .cmd (BitVec.ofNat 64 w)) :: s.inputs }
  | .phase => { s with phase := BitVec.ofNat 5 w, inputs := none :: s.inputs }
  | .hdrMagic | .hdrFlag | .nodeid => { s with inputs := some (.line f w) :: s.inputs }

end Sys2Proof.Machine
end

