-- ==== Sys2Proof/Machine/Step.lean ====
section
/-! DEFINITION. One step: the next entry of the schedule, a host event or the sequencer's turn (log 5). -/

namespace Sys2Proof.Machine

/-- One step of the machine. -/
def step (s : State) : Host.Outcome State Fault Refusal :=
  match s.inputs with
  | [] => runPhase s
  | none :: rest => runPhase { s with inputs := rest }
  | some e :: rest => hostEvent e { s with inputs := rest }

/-- The state whose next step runs the table word `w` (log 6, log 8). -/
def State.withFetchWord (s : State) (nbits w : Nat) : State :=
  match tableFormat nbits w with
  | none => s
  | some f => placeWord f w s

end Sys2Proof.Machine
end

