-- ==== Sys2Proof/Safety.lean ====
section
/-! DEFINITION. What claims about the block are stated in: several steps, one host command from start to rest, a good
environment, the invariant every step keeps, the tree BUILD makes (spec/10_state.md R26), and the reference readings
of FREQ (R112) and UNPACK (R165) on whole sequences. -/

namespace Sys2Proof.Machine

/-! ### Runs -/

/-- `k` steps, stopping at a fault or a refusal. -/
def steps : Nat → State → Host.Outcome State Fault Refusal
  | 0, s => .next s
  | k + 1, s =>
    match step s with
    | .next t => steps k t
    | .fault f => .fault f
    | .refused r => .refused r

/-- The host's order of R244: bind the source, write SRCLEN, write CMD. -/
def request (cmd : Size) (bytes : List Byte) : List (Option HostEvent) :=
  [some (.bindSource bytes), some (.write .srclen (BitVec.ofNat 64 bytes.length)), some (.write .cmd cmd)]

/-- One command on one source, run to rest: three host events and the ten phases of the longest sequence (R182); a
shorter sequence rests for the steps left over (R197). -/
def command (cmd : Size) (bytes : List Byte) (s : State) : Host.Outcome State Fault Refusal :=
  steps 13 { s with inputs := request cmd bytes }

/-- Every answer of the environment is true (R68, R221): the premise of a claim of success. -/
def AllAnswersTrue (s : State) : Prop := (∀ b ∈ s.answers, b = true) ∧ s.answersAfter = true

/-- The operation ended without an error (R251). -/
def Succeeded (s : State) : Prop := s.phase = 17#5 ∧ s.status.done = true

/-! ### Sequences of source bytes -/

/-- `SRC[p]` as the block reads it. -/
def srcByte (s : State) (p : Nat) : Byte := (memRead p 1 s).getD 0 0#8

/-- The bytes of the source, positions 0..SRCLEN−1. -/
def srcBytes (s : State) : List Byte := memRead 0 s.srclen.toNat s

/-- FREQ counts position `p` (R112): no byte of its chunk up to and with `p` is zero. -/
def countedAt (s : State) (p : Nat) : Bool :=
  (List.range (p % s.cfg.chunk + 1)).all fun j => srcByte s (p / s.cfg.chunk * s.cfg.chunk + j) != 0#8

/-- How often FREQ counts the symbol (R112). -/
def occurrences (s : State) (sym : Nat) : Nat :=
  ((List.range s.srclen.toNat).filter fun p => (srcByte s p).toNat == sym && countedAt s p).length

/-- The number of chunks of the source, `ceil(SRCLEN / CHUNK)` (R113). -/
def chunkCount (s : State) : Nat := (s.srclen.toNat + s.cfg.chunk - 1) / s.cfg.chunk

/-! ### Trees -/

/-- The ids of the active nodes below a bound (R21). -/
def activeBelow (n : NodeTable) (bound : Nat) : List Nat :=
  (List.range bound).filter fun i => isActive (getCount n.count i)

/-- The sum of the positive counts of the leaves. -/
def leafWeight (n : NodeTable) : Int := ((activeBelow n 256).map fun i => (getCount n.count i).toInt).sum

/-- A node table as INIT and FREQ leave it (R110, R112): links absent, the terminator counted once. -/
structure Counted (n : NodeTable) : Prop where
  startLinks : n = { initialNodes with count := n.count }
  terminator : (getCount n.count 0).toInt = 1
  leaves : ∀ i, i < 256 → 0 ≤ (getCount n.count i).toInt
  slots : ∀ i, 256 ≤ i → i < 512 → getCount n.count i = 0#32
  bounded : leafWeight n ≤ cntMax

/-- The links of a tree that BUILD made with at least one merge (R26 (b), (d), (e), (f)). -/
structure BuiltTree (n : NodeTable) : Prop where
  created : 257 ≤ n.nextFree.toNat ∧ n.nextFree.toNat ≤ 511
  rootIsLast : n.root = (n.nextFree.toNat : Int) - 1
  children : ∀ k : Nat, 256 ≤ k → k < n.nextFree.toNat →
    ∃ a b : Nat, getLink n.left k = a ∧ getLink n.right k = b ∧ a ≠ b ∧ a < k ∧ b < k ∧
      getLink n.parent a = k ∧ getLink n.parent b = k
  parents : ∀ i : Nat, i < 512 → getLink n.parent i ≠ noNode →
    ∃ p : Nat, getLink n.parent i = p ∧ i < p ∧ 256 ≤ p ∧ p < n.nextFree.toNat ∧
      (getLink n.left p = i ∨ getLink n.right p = i)
  rootHasNoParent : getLink n.parent (n.nextFree.toNat - 1) = noNode
  othersHaveParents : ∀ i : Nat, 256 ≤ i → i + 1 < n.nextFree.toNat → getLink n.parent i ≠ noNode
  untouched : ∀ i : Nat, n.nextFree.toNat ≤ i → i < 512 →
    getLink n.left i = noNode ∧ getLink n.right i = noNode ∧ getLink n.parent i = noNode

/-- Where the walk of R165 stands after following the bits from a node: 0 to the left child, 1 to the right. -/
def follow (n : NodeTable) (i : Int) (bits : List Bool) : Int :=
  bits.foldl (fun v b => child n v.toNat b) i

/-- How a walk over a whole bit string ends: at the terminator or at a missing child with so many bits unread, or
without bits. -/
inductive WalkEnd where
  | stopped (bitsLeft : Nat)
  | missing (bitsLeft : Nat)
  | starved
  deriving DecidableEq, Repr

/-- The walk of R165 over a whole bit string, standing at a node: the symbols emitted and how it ends. -/
def walkBits (n : NodeTable) : Int → List Bool → List Byte × WalkEnd
  | _, [] => ([], .starved)
  | i, b :: bs =>
    let nxt := child n i.toNat b
    if nxt < 0 ∨ 511 < nxt then ([], .missing bs.length)
    else if nxt = 0 then ([], .stopped bs.length)
    else if nxt < 256 then
      let r := walkBits n n.root bs
      (BitVec.ofInt 8 nxt :: r.1, r.2)
    else walkBits n nxt bs

/-- The rows NODE.* run one after another on the node the walk stands at, until PHASE leaves UNPACK (R96, R97). -/
def runNodeRows : Nat → State → Host.Outcome State Fault Refusal
  | 0, s => .next s
  | k + 1, s =>
    match decode .nodeid s.cur.toNat with
    | .rejected _ => .refused .lineRejected
    | .instr i =>
      match exec i s with
      | .next t => if t.phase = 14#5 then runNodeRows k t else .next t
      | .fault f => .fault f
      | .refused r => .refused r

/-! ### The successor table -/

/-- The successor of a phase operation (R182): `s` is the state it starts in, `t` the one it ends in. -/
def successor (i : Instr) (s t : State) : BitVec 5 :=
  match i with
  | .init => if s.op = 1#2 then 2#5 else 11#5
  | .wrMagic => 3#5
  | .decideMode => 4#5
  | .wrFlag => if s.huff then 5#5 else 10#5
  | .freq => 6#5
  | .build => 7#5
  | .serialize => 8#5
  | .codegen => 9#5
  | .pack => 16#5
  | .copyEnc => 16#5
  | .rdMagic => 12#5
  | .rdFlag => if t.huff then 13#5 else 15#5
  | .deserialize => 14#5
  | .unpack => 16#5
  | .copyDec => 16#5
  | .finish => 17#5
  | .idle | .done | .error => s.phase
  | .archive | .unarchive => if s.status.busy then s.phase else 1#5
  | .hdrMagic _ => 12#5
  | .hdrFlagHuff _ => 13#5
  | .hdrFlagVerb _ => 15#5
  | .nodeTerminator => 16#5
  | .nodeSymbol _ | .nodeInternal _ => s.phase

/-! ### The invariant -/

/-- A stored index value fits an index field (R22). -/
def LinksFit (w : IdxWidth) (v : Vector Int 512) : Prop := ∀ i : Nat, i < 512 → fitsIdx w (getLink v i) = true

/-- What holds in every state a host can bring the block to (phase-level lines, which are for tests, left out). -/
structure Inv (s : State) : Prop where
  /-- PHASE is a code the spec gives (R31, U14). -/
  phaseLegal : s.phase.toNat ≤ 18
  /-- BUSY from the acceptance of a command until DONE or ERROR (R34). -/
  busyIff : s.status.busy = true ↔ 1 ≤ s.phase.toNat ∧ s.phase.toNat ≤ 16
  /-- STATUS.DONE and the resting state DONE (R34). -/
  doneIff : s.status.done = true ↔ s.phase = 17#5
  /-- STATUS.ERR and the resting state ERROR (R34). -/
  errIff : s.status.err = true ↔ s.phase = 18#5
  /-- ERRCODE is 0 exactly when no error ended the last operation (R35); 7 is never produced (U14). -/
  errcodeIff : s.errcode ≠ 0#3 ↔ s.phase = 18#5
  errcodeLegal : s.errcode ≠ 7#3
  /-- OP is never 3 (U14) and names a command while BUSY (R32). -/
  opLegal : s.op ≠ 3#2
  opWhileBusy : s.status.busy = true → s.op ≠ 0#2
  /-- STATUS.HUFF is a copy of `huff` once DECIDE or RD_FLAG has run (R30). -/
  huffCopy : (4 ≤ s.phase.toNat ∧ s.phase.toNat ≤ 10) ∨ (13 ≤ s.phase.toNat ∧ s.phase.toNat ≤ 17) →
    s.status.huff = s.huff
  /-- The streams are in canonical form. -/
  srcWf : Memory.wf s.src = true
  dstWf : Memory.wf s.dst = true
  leftoverWf : Memory.wf s.leftover = true
  /-- DSTLEN is the number of bytes appended (R38). The one exception is a failed open, after which the destination is
  empty and DSTLEN is the register of before until an INIT opens it (R110, R213; log 23). -/
  dstlenCounts : s.dst.length < 2 ^ 64 → s.dstlen.toNat = s.dst.length ∨
    (s.dst = [] ∧ (s.phase = 1#5 ∨ (s.phase = 18#5 ∧ s.errcode = 5#3)))
  /-- Everything appended is delivered at rest (R57). -/
  deliveredBound : s.delivered ≤ s.dst.length
  deliveredAtRest : s.status.busy = false → s.delivered = s.dst.length
  /-- The streams are open from INIT to the end of the operation (R57). -/
  openIff : s.streamsOpen = true ↔ 2 ≤ s.phase.toNat ∧ s.phase.toNat ≤ 16
  /-- `nextFree` is in 256..512 (R25). -/
  nextFreeRange : 256 ≤ s.nodes.nextFree.toNat ∧ s.nodes.nextFree.toNat ≤ 512
  /-- Links, `root` and `cur` are values of IDXW bits (R22, R24, R29). -/
  leftFits : LinksFit s.cfg.width s.nodes.left
  rightFits : LinksFit s.cfg.width s.nodes.right
  parentFits : LinksFit s.cfg.width s.nodes.parent
  rootFits : fitsIdx s.cfg.width s.nodes.root = true
  curFits : fitsIdx s.cfg.width s.cur = true
  /-- A code has at most 255 bits (R27). -/
  codeBound : ∀ b : Byte, (getCode s.code b).length ≤ 255
  /-- The bit queue holds at most 8 bits (R29). -/
  nbqBound : s.nbq.toNat ≤ 8
  /-- The chunk buffer holds CHUNK bytes (R40). -/
  bufLength : s.buf.length = s.cfg.chunk
  /-- No phase-level line is scheduled. -/
  noLines : ∀ f w, some (HostEvent.line f w) ∉ s.inputs

end Sys2Proof.Machine
end

