-- ==== Sys2Proof/Certificates/Slice0/Obligations.lean ====
section
/-! DEFINITION. The statements for the provers, from the numbered rules of spec/. A frame is written as one equation
`t = { s with ... }`: every field it does not name is unchanged. -/

open Sys2Proof Sys2Proof.Machine

/-! ### Encodings and the step -/

/-- R81, R82, R84, R85, R97: decoding and encoding are inverse to each other on exactly the well-formed
instructions. -/
def Obligations.DecodeAndEncodeAgree : Prop :=
  ∀ (f : Format) (w : Nat) (i : Instr),
    decode f w = .instr i ↔ (i.wellFormed = true ∧ i.format = f ∧ encode i = w)

/-- Words written out from the tables of R81, R82, R84, R85, R97, and words R92 reserves. -/
def Obligations.SpecWordsDecodeAsWritten : Prop :=
  decode .cmdw 0b00000001 = .instr .archive ∧ decode .cmdw 0b00000010 = .instr .unarchive ∧
  decode .phase 0b00001 = .instr .init ∧ decode .phase 0b00110 = .instr .build ∧
  decode .phase 0b01110 = .instr .unpack ∧ decode .phase 0b10010 = .instr .error ∧
  decode .hdrMagic 0xAABBCCDD = .instr (.hdrMagic 0xAABBCCDD#32) ∧
  decode .hdrFlag 0b00000011 = .instr (.hdrFlagHuff 1#7) ∧
  decode .hdrFlag 0b11111110 = .instr (.hdrFlagVerb 127#7) ∧
  decode .nodeid 0b000000000 = .instr .nodeTerminator ∧
  decode .nodeid 0b001000001 = .instr (.nodeSymbol 65#8) ∧
  decode .nodeid 0b100000010 = .instr (.nodeInternal 2#8) ∧
  decode .cmdw 0b00000011 = .rejected .illegalCommand ∧ decode .phase 0b10011 = .rejected .reservedPhase

/-- R182, R31: at its turn the sequencer runs the operation PHASE names. R33: a write to CMD runs the command. The
model's choices: the schedule of events (log 5); that CMD takes the low 8 bits of the value written (log 17); that a line
(R93 speaks of the phase mnemonics) may be a word of any format, the selectors included (log 7), and runs whatever PHASE
and STATUS hold (log 26). -/
def Obligations.StepRunsTheDecodedInstruction : Prop :=
  (∀ (s : State) (i : Instr) (rest : List (Option HostEvent)),
    (s.inputs = none :: rest ∨ (s.inputs = [] ∧ rest = [])) → decode .phase s.phase.toNat = .instr i →
    step s = exec i { s with inputs := rest }) ∧
  (∀ (s : State) (i : Instr) (v : Size) (rest : List (Option HostEvent)),
    s.inputs = some (.write .cmd v) :: rest → decode .cmdw (v.toNat % 256) = .instr i →
    step s = exec i { s with inputs := rest }) ∧
  (∀ (s : State) (i : Instr) (f : Format) (w : Nat) (rest : List (Option HostEvent)),
    s.inputs = some (.line f w) :: rest → decode f w = .instr i →
    step s = exec i { s with inputs := rest })

/-- The model's own convention (log 6, log 8): a table word placed for fetching is what the next step runs. -/
def Obligations.FetchedWordRunsNext : Prop :=
  ∀ (s : State) (nbits w : Nat) (i : Instr), decodeTableWord nbits w = some i →
    step (s.withFetchWord nbits w) = exec i s ∨
    (i.format = .phase ∧ step (s.withFetchWord nbits w) = exec i { s with phase := i.phaseCode })

/-! ### The host interface -/

/-- R198: a write to CMD of any other value, or while BUSY, changes no state and raises no error. -/
def Obligations.CommandNotAcceptedChangesNothing : Prop :=
  ∀ (s : State) (v : Size), s.status.busy = true ∨ (v.toNat % 256 ≠ 1 ∧ v.toNat % 256 ≠ 2) →
    hostEvent (.write .cmd v) s = .next s

/-- R180, R181: acceptance, and its frame. That STATUS.HUFF stays as it was is the model's reading of R180, whose
pseudocode does not name it (log 21). -/
def Obligations.CommandIsAcceptedAtRest : Prop :=
  ∀ s : State, s.status.busy = false →
    exec .archive s = .next { s with
      op := 1#2, phase := 1#5, errcode := 0#3, status := { busy := true, done := false, err := false, huff := s.status.huff } } ∧
    exec .unarchive s = .next { s with
      op := 2#2, phase := 1#5, errcode := 0#3, status := { busy := true, done := false, err := false, huff := s.status.huff } }

/-- R197, R217: in IDLE, DONE and ERROR nothing changes, and SRCLEN may be written. -/
def Obligations.RestingStatesTakeNoStep : Prop :=
  ∀ (s : State) (i : Instr), (i = .idle ∨ i = .done ∨ i = .error) →
    exec i s = .next s ∧
    (s.phase = i.phaseCode → s.inputs = [] → step s = .next s) ∧
    (s.status.busy = false → ∀ v, hostEvent (.write .srclen v) s = .next { s with srclen := v })

/-- R33 to R38: what a host read returns at rest, and that it changes nothing the spec names. -/
def Obligations.HostReadsAreExactAtRest : Prop :=
  ∀ (s : State) (r : CtrlReg), s.status.busy = false →
    ∃ v : Size, hostEvent (.read r) s = .next { s with hostData := some v, freeCount := s.freeCount + 1 } ∧
    match r with
    | .cmd => v = 0#64
    | .status =>
      (v.getLsbD 0 = s.status.busy ∧ v.getLsbD 1 = s.status.done ∧ v.getLsbD 2 = s.status.err ∧
        v.getLsbD 3 = s.status.huff) ∧ v.toNat < 16
    | .errcode => v.toNat = s.errcode.toNat
    | .phase => v.toNat = s.phase.toNat
    | .srclen => v = s.srclen
    | .srcpos => v = s.srcpos
    | .dstlen => v = s.dstlen

/-- R253, U16: while BUSY a read of SRCPOS or DSTLEN lies between its values at the two ends of the phase in
progress; writes to CMD and SRCLEN are ignored. R41, R66: a look at the destination shows its first `n` bytes for some
`n`, counted to the end of the phase in progress (log 9), never fewer than at the look before (`shown`, log 28). -/
def Obligations.BusyRegistersKeepToTheRule : Prop :=
  ∀ s : State, s.status.busy = true →
    (∃ k : Nat, hostEvent (.read .srcpos) s =
      .next { s with hostData := some (BitVec.ofNat 64 k), freeCount := s.freeCount + 1 } ∧
      min s.srcpos.toNat (afterPhase s).srcpos.toNat ≤ k ∧ k ≤ max s.srcpos.toNat (afterPhase s).srcpos.toNat) ∧
    (∃ k : Nat, hostEvent (.read .dstlen) s =
      .next { s with hostData := some (BitVec.ofNat 64 k), freeCount := s.freeCount + 1 } ∧
      min s.dstlen.toNat (afterPhase s).dstlen.toNat ≤ k ∧ k ≤ max s.dstlen.toNat (afterPhase s).dstlen.toNat) ∧
    (∀ v : Size, hostEvent (.write .srclen v) s = .next s ∧ hostEvent (.write .cmd v) s = .next s) ∧
    ∀ a : Size, ∃ n : Nat, hostEvent (.readDst a) s = .next { s with
        hostData := (Memory.readByte ((afterPhase s).dst.take n) a.toNat).map (·.setWidth 64)
        shown := n, freeCount := s.freeCount + 1 } ∧
      min s.shown (afterPhase s).dst.length ≤ n ∧ n ≤ (afterPhase s).dst.length

/-- R240, R43: a hardware reset clears the control registers; what the destination of an operation under way is left
with is a number of the first bytes appended, counted to the end of the phase in progress (log 10). Nothing is said of
the state R43 leaves unspecified. -/
def Obligations.HardwareResetClearsTheControlRegisters : Prop :=
  ∀ s : State, ∃ t, hostEvent .hardReset s = .next t ∧
    t.phase = 0#5 ∧ t.op = 0#2 ∧ t.status.toByte = 0#8 ∧ t.errcode = 0#3 ∧
    t.srclen = 0#64 ∧ t.srcpos = 0#64 ∧ t.dstlen = 0#64 ∧ t.dst = [] ∧
    (s.status.busy = true → ∃ k, k ≤ (afterPhase s).dst.length ∧ t.leftover = (afterPhase s).dst.take k) ∧
    (t.src = s.src ∧ t.cfg = s.cfg ∧ t.inputs = s.inputs)

/-- R43: what reset leaves in the registers the spec gives a value. -/
def Obligations.ResetLeavesTheControlRegistersZero : Prop :=
  State.reset.phase = 0#5 ∧ State.reset.op = 0#2 ∧ State.reset.status.toByte = 0x00#8 ∧
  State.reset.errcode = 0#3 ∧ State.reset.srclen = 0#64 ∧ State.reset.srcpos = 0#64 ∧ State.reset.dstlen = 0#64

/-! ### Taking an error -/

/-- R213, R211: `raise X` does this and nothing else. -/
def Obligations.RaiseRecordsTheErrorAndNothingElse : Prop :=
  ∀ (x : ErrCode) (s : State),
    takeError x s = { s with
      errcode := (takeError x s).errcode
      status := { busy := false, done := false, err := true, huff := s.status.huff }
      phase := 18#5, delivered := s.dst.length, streamsOpen := false } ∧
    (takeError x s).errcode.toNat = match x with
      | .formatMismatch => 1
      | .insufficientData => 2
      | .structuralInconsistency => 3
      | .capacityExceeded => 4
      | .ioFailure => 5
      | .countOverflow => 6

/-- R211: each error comes only from the operations its row names (the selector rows stand for RD_MAGIC and
UNPACK). -/
def Obligations.EveryErrorComesFromItsOperations : Prop :=
  ∀ (i : Instr) (s t : State), exec i s = .next t → s.errcode = 0#3 → t.errcode ≠ 0#3 →
    t.phase = 18#5 ∧ t.status.err = true ∧
    ((t.errcode = 1#3 ∧ (i = .rdMagic ∨ ∃ m, i = .hdrMagic m)) ∨
     (t.errcode = 2#3 ∧ (i = .rdFlag ∨ i = .deserialize ∨ i = .unpack ∨ ∃ n, i = .nodeInternal n)) ∨
     (t.errcode = 3#3 ∧ (i = .unpack ∨ ∃ n, i = .nodeInternal n)) ∨
     (t.errcode = 4#3 ∧ i = .build) ∨
     (t.errcode = 5#3 ∧ (i = .init ∨ i = .wrMagic ∨ i = .wrFlag ∨ i = .serialize ∨ i = .pack ∨ i = .copyEnc ∨
        i = .unpack ∨ i = .copyDec ∨ i = .finish ∨ ∃ n, i = .nodeSymbol n)) ∨
     (t.errcode = 6#3 ∧ (i = .freq ∨ i = .build)))

/-- R57: on every exit path of an operation everything appended is delivered, the outside sees exactly that (nothing
where the open failed), and the streams are released. -/
def Obligations.EveryExitFlushesAndReleases : Prop :=
  ∀ (i : Instr) (s t : State), exec i s = .next t → s.status.busy = true → t.status.busy = false →
    t.delivered = t.dst.length ∧ t.streamsOpen = false ∧ (t.phase = 17#5 ∨ t.phase = 18#5) ∧
    visibleDst t = t.dst ∧ (i = .init → visibleDst t = [])

/-! ### Whole-machine rules -/

/-- R182: the successor table. The model's choices: INIT with an OP that is neither command goes on to RD_MAGIC, as
R110's pseudocode has it where the table's row speaks of UNARCHIVE (log 18); the successor of a selector row is that of
the operation it is a piece of, and PHASE stays while the walk goes on (log 7). -/
def Obligations.EveryOperationHandsOnToItsSuccessor : Prop :=
  ∀ (i : Instr) (s t : State), exec i s = .next t →
    t.phase = successor i s t ∨ (t.phase = 18#5 ∧ t.status.err = true ∧ t.status.busy = false)

/-- R45, the rows of encode: what each operation leaves unchanged, errors included (`phase`, `status`, `errcode`,
`delivered` and `streamsOpen` may change by R213). -/
def Obligations.EncodeOperationsKeepTheAccessTable : Prop :=
  ∀ s t : State,
    (exec .wrMagic s = .next t ∨ exec .wrFlag s = .next t ∨ exec .serialize s = .next t → t = { s with
      dst := t.dst, dstlen := t.dstlen, answers := t.answers, phase := t.phase, status := t.status,
      errcode := t.errcode, delivered := t.delivered, streamsOpen := t.streamsOpen }) ∧
    (exec .decideMode s = .next t → t = { s with huff := t.huff, status := t.status, phase := t.phase }) ∧
    (exec .freq s = .next t → t = { s with
      nodes := { s.nodes with count := t.nodes.count }, srcpos := t.srcpos, buf := t.buf, phase := t.phase,
      status := t.status, errcode := t.errcode, delivered := t.delivered, streamsOpen := t.streamsOpen } ∧
      ∀ i : Nat, (i = 0 ∨ 256 ≤ i) → getCount t.nodes.count i = getCount s.nodes.count i) ∧
    (exec .build s = .next t → t = { s with
      nodes := t.nodes, phase := t.phase, status := t.status, errcode := t.errcode, delivered := t.delivered,
      streamsOpen := t.streamsOpen } ∧
      (256 ≤ s.nodes.nextFree.toNat → ∀ i : Nat, i < 256 →
        getLink t.nodes.left i = getLink s.nodes.left i ∧ getLink t.nodes.right i = getLink s.nodes.right i)) ∧
    (exec .codegen s = .next t → t = { s with code := t.code, phase := t.phase }) ∧
    (exec .pack s = .next t → t = { s with
      acc := t.acc, nacc := t.nacc, srcpos := t.srcpos, dst := t.dst, dstlen := t.dstlen, answers := t.answers,
      phase := t.phase, status := t.status, errcode := t.errcode, delivered := t.delivered,
      streamsOpen := t.streamsOpen }) ∧
    (exec .copyEnc s = .next t → t = { s with
      buf := t.buf, srcpos := t.srcpos, dst := t.dst, dstlen := t.dstlen, answers := t.answers, phase := t.phase,
      status := t.status, errcode := t.errcode, delivered := t.delivered, streamsOpen := t.streamsOpen })

/-- R45, the rows of decode, INIT and FINISH. -/
def Obligations.DecodeOperationsKeepTheAccessTable : Prop :=
  ∀ s t : State,
    (exec .init s = .next t → t = { s with
      nodes := t.nodes, srcpos := t.srcpos, dst := t.dst, dstlen := t.dstlen, answers := t.answers, shown := t.shown,
      phase := t.phase, status := t.status, errcode := t.errcode, delivered := t.delivered,
      streamsOpen := t.streamsOpen }) ∧
    (exec .rdMagic s = .next t → t = { s with
      srcpos := t.srcpos, phase := t.phase, status := t.status, errcode := t.errcode, delivered := t.delivered,
      streamsOpen := t.streamsOpen }) ∧
    (exec .rdFlag s = .next t → t = { s with
      huff := t.huff, srcpos := t.srcpos, phase := t.phase, status := t.status, errcode := t.errcode,
      delivered := t.delivered, streamsOpen := t.streamsOpen }) ∧
    (exec .deserialize s = .next t → t = { s with
      nodes := { s.nodes with left := t.nodes.left, right := t.nodes.right, parent := t.nodes.parent, root := t.nodes.root }
      srcpos := t.srcpos, phase := t.phase, status := t.status, errcode := t.errcode, delivered := t.delivered,
      streamsOpen := t.streamsOpen }) ∧
    (exec .unpack s = .next t → t = { s with
      bq := t.bq, nbq := t.nbq, cur := t.cur, srcpos := t.srcpos, dst := t.dst, dstlen := t.dstlen,
      answers := t.answers, phase := t.phase, status := t.status, errcode := t.errcode, delivered := t.delivered,
      streamsOpen := t.streamsOpen }) ∧
    (exec .copyDec s = .next t → t = { s with
      srcpos := t.srcpos, dst := t.dst, dstlen := t.dstlen, answers := t.answers, phase := t.phase,
      status := t.status, errcode := t.errcode, delivered := t.delivered, streamsOpen := t.streamsOpen }) ∧
    (exec .finish s = .next t → t = { s with
      answers := t.answers, phase := t.phase, status := t.status, errcode := t.errcode, delivered := t.delivered,
      streamsOpen := t.streamsOpen })

/-- R55: the destination is empty at the start of every operation, whether or not it opens, and grows only at its end:
every byte once appended reads as before, after an error too. -/
def Obligations.DestinationOnlyGrowsAtItsEnd : Prop :=
  ∀ (i : Instr) (s t : State), exec i s = .next t →
    (i ≠ .init → ∃ v, t.dst = Memory.extend s.dst v) ∧
    (i ≠ .init → ∀ a, a < s.dst.length → Memory.wf s.dst = true →
      Memory.readByte t.dst a = Memory.readByte s.dst a) ∧
    (i = .init → t.dst = [] ∧ (nextAnswer s = true → t.dstlen = 0#64))

/-- R51, R5 to R7: no operation writes the source, SRCLEN or a parameter, whatever it ends in. -/
def Obligations.SourceAndParametersAreNeverWritten : Prop :=
  ∀ (i : Instr) (s t : State), exec i s = .next t →
    t.src = s.src ∧ t.srclen = s.srclen ∧ t.cfg = s.cfg ∧ t.inputs = s.inputs ∧ t.hostData = s.hostData ∧
    (∀ a n, memRead a n t = memRead a n s)

/-- R56: an append puts its bytes at the end and counts them, or, where the environment says no, appends nothing,
leaves DSTLEN and takes IOFailure. -/
def Obligations.AppendIsAllOrNothing : Prop :=
  ∀ (s : State) (v : List Byte),
    (nextAnswer s = true → s.dstlen.toNat + v.length < 2 ^ 64 → ∃ t, memWrite v s = .go t ∧
      Memory.bytes t.dst = Memory.bytes s.dst ++ v ∧ t.dstlen.toNat = s.dstlen.toNat + v.length ∧
      t = { s with dst := t.dst, dstlen := t.dstlen, answers := s.answers.tail }) ∧
    (nextAnswer s = false → ∃ t, memWrite v s = .raised t ∧ t.dst = s.dst ∧ t.dstlen = s.dstlen ∧
      t.errcode = 5#3 ∧ t.phase = 18#5)

/-! ### INIT and FREQ -/

/-- R110: both outcomes of INIT, with their frames. The model's readings: an OP that is neither command goes on to
RD_MAGIC (log 18); after a failed open DSTLEN and SRCPOS are those of the operation before, while the destination, which
is the new operation's, is empty (R55, R57, R213; log 23). -/
def Obligations.InitStartsTheOperation : Prop :=
  ∀ s : State,
    (nextAnswer s = true → ∃ t, exec .init s = .next t ∧
      t = { s with
        nodes := t.nodes, srcpos := 0#64, dstlen := 0#64, dst := [], delivered := 0, shown := 0, streamsOpen := true,
        answers := s.answers.tail, phase := if s.op = 1#2 then 2#5 else 11#5 } ∧
      (∀ i : Nat, i < 512 →
        getCount t.nodes.count i = (if i = 0 then 1#32 else 0#32) ∧ t.nodes.left[i]? = some (-1) ∧
        t.nodes.right[i]? = some (-1) ∧ t.nodes.parent[i]? = some (-1)) ∧
      t.nodes.root = -1 ∧ t.nodes.nextFree = 256#10) ∧
    (nextAnswer s = false →
      exec .init s = .next (takeError .ioFailure { s with answers := s.answers.tail, dst := [], shown := 0 }))

/-- R111, R112: from INIT's counts FREQ counts, for each symbol 1..255, the positions that hold it and have no zero
byte before them in their chunk; count 0 stays 1, the internal slots stay 0; SRCPOS ends at `CHUNK · ceil(SRCLEN /
CHUNK)`; nothing else changes. (SRCPOS past 64 bits is a free value: log 16.) -/
def Obligations.FreqCountsTheBytesBeforeAZero : Prop :=
  ∀ s : State, s.srcpos = 0#64 → s.srclen.toNat ≤ 2 ^ 31 - 2 →
    (∀ i : Nat, i < 512 → getCount s.nodes.count i = if i = 0 then 1#32 else 0#32) →
    ∃ t, exec .freq s = .next t ∧
      (∀ sym : Nat, 1 ≤ sym → sym < 256 → (getCount t.nodes.count sym).toInt = occurrences s sym) ∧
      getCount t.nodes.count 0 = 1#32 ∧
      (∀ i : Nat, 256 ≤ i → i < 512 → getCount t.nodes.count i = 0#32) ∧
      t = { s with
        nodes := { s.nodes with count := t.nodes.count }, buf := t.buf, phase := 6#5
        srcpos := narrowSize (s.cfg.chunk * chunkCount s) }

/-- R111: a count already at CNT_MAX is CountOverflow, and the byte is not counted. -/
def Obligations.FreqRaisesCountOverflow : Prop :=
  ∀ s : State, s.srcpos = 0#64 → 0 < s.srclen.toNat → srcByte s 0 ≠ 0#8 →
    (getCount s.nodes.count (srcByte s 0).toNat).toInt = 2147483647 →
    ∃ t, exec .freq s = .next t ∧ t.errcode = 6#3 ∧ t.phase = 18#5 ∧ t.status.err = true ∧
      t.status.busy = false ∧ t.nodes = s.nodes ∧ t.dst = s.dst

/-! ### BUILD -/

/-- R121: SelectMin answers the active node with the smallest count, the lowest id among equals, and nothing only
where there is none. -/
def Obligations.SelectMinIsTheLeastActiveNode : Prop :=
  ∀ (n : NodeTable) (excl : Option Nat), n.nextFree.toNat ≤ 512 →
    (∀ a, selectMin excl n = some a →
      a < n.nextFree.toNat ∧ some a ≠ excl ∧ isActive (getCount n.count a) = true ∧
      ∀ j, j < n.nextFree.toNat → some j ≠ excl → isActive (getCount n.count j) = true →
        (getCount n.count a).toInt < (getCount n.count j).toInt ∨
        ((getCount n.count a).toInt = (getCount n.count j).toInt ∧ a ≤ j)) ∧
    (selectMin excl n = none → ∀ j, j < n.nextFree.toNat → some j ≠ excl → isActive (getCount n.count j) = false)

/-- R122: the merge step, or CountOverflow with nothing changed. -/
def Obligations.MergeMakesTheNextInternalNode : Prop :=
  ∀ (n : NodeTable) (a b : Nat), a < n.nextFree.toNat → b < n.nextFree.toNat → a ≠ b →
    n.nextFree.toNat < 512 → isActive (getCount n.count a) = true → isActive (getCount n.count b) = true →
    (2147483647 < (getCount n.count a).toInt + (getCount n.count b).toInt → merge a b n = none) ∧
    ((getCount n.count a).toInt + (getCount n.count b).toInt ≤ 2147483647 → ∃ m, merge a b n = some m ∧
      (getCount m.count n.nextFree.toNat).toInt = (getCount n.count a).toInt + (getCount n.count b).toInt ∧
      (getCount m.count a).toInt = -(getCount n.count a).toInt ∧
      (getCount m.count b).toInt = -(getCount n.count b).toInt ∧
      (∀ i, i ≠ n.nextFree.toNat → i ≠ a → i ≠ b → getCount m.count i = getCount n.count i) ∧
      getLink m.left n.nextFree.toNat = a ∧ getLink m.right n.nextFree.toNat = b ∧
      (∀ i, i ≠ n.nextFree.toNat → getLink m.left i = getLink n.left i ∧ getLink m.right i = getLink n.right i) ∧
      getLink m.parent a = n.nextFree.toNat ∧ getLink m.parent b = n.nextFree.toNat ∧
      (∀ i, i ≠ a → i ≠ b → getLink m.parent i = getLink n.parent i) ∧
      m.root = n.nextFree.toNat ∧ m.nextFree.toNat = n.nextFree.toNat + 1)

/-- R123: from `k` active leaves BUILD makes exactly `k − 1` merges and one active node is left. -/
def Obligations.BuildMergesUntilOneNodeIsActive : Prop :=
  ∀ (s : State) (k : Nat), s.nodes.nextFree = 256#10 →
    (∀ i : Nat, 256 ≤ i → i < 512 → isActive (getCount s.nodes.count i) = false) →
    (activeBelow s.nodes 256).length = k → 1 ≤ k → leafWeight s.nodes ≤ 2147483647 →
    ∃ t, exec .build s = .next t ∧ t = { s with nodes := t.nodes, phase := 7#5 } ∧
      t.nodes.nextFree.toNat = 256 + (k - 1) ∧ (activeBelow t.nodes 512).length = 1

/-- R26: the table after a BUILD that started from the output of INIT and FREQ with at least one counted byte. -/
def Obligations.BuildMakesTheTreeOfTheInvariants : Prop :=
  ∀ s : State, Counted s.nodes → (∃ x : Nat, 1 ≤ x ∧ x < 256 ∧ isActive (getCount s.nodes.count x) = true) →
    ∃ t, exec .build s = .next t ∧ t = { s with nodes := t.nodes, phase := 7#5 } ∧ BuiltTree t.nodes ∧
      t.nodes.nextFree.toNat = 255 + (activeBelow s.nodes 256).length ∧
      (activeBelow t.nodes 512 = [t.nodes.nextFree.toNat - 1]) ∧
      (getCount t.nodes.count (t.nodes.nextFree.toNat - 1)).toInt = leafWeight s.nodes ∧
      (∀ k a b : Nat, 256 ≤ k → k < t.nodes.nextFree.toNat → getLink t.nodes.left k = a →
        getLink t.nodes.right k = b →
        -(getCount t.nodes.count a).toInt - (getCount t.nodes.count b).toInt =
          |(getCount t.nodes.count k).toInt|) ∧
      (∀ i : Nat, i < 256 →
        |(getCount t.nodes.count i).toInt| = (getCount s.nodes.count i).toInt ∧
        (getLink t.nodes.parent i ≠ -1 ↔ isActive (getCount s.nodes.count i) = true)) ∧
      (∀ i : Nat, t.nodes.nextFree.toNat ≤ i → i < 512 → getCount t.nodes.count i = 0#32)

/-- R125, R124: with fewer than two active nodes BUILD ends at once with no merge and no error; with a pair found and
all slots used it takes CapacityExceeded and changes no node. -/
def Obligations.BuildEndsOrExceedsCapacityAtOnce : Prop :=
  ∀ s : State,
    (s.nodes.nextFree.toNat ≤ 512 → (activeBelow s.nodes s.nodes.nextFree.toNat).length < 2 →
      exec .build s = .next { s with phase := 7#5 }) ∧
    (s.nodes.nextFree = 512#10 → 2 ≤ (activeBelow s.nodes 512).length →
      exec .build s = .next (takeError .capacityExceeded s))

/-- R128: one repeated nonzero byte: the tree and the two codes. -/
def Obligations.SingleSymbolGetsOneBitCodes : Prop :=
  ∀ (s : State) (x : Nat), 1 ≤ x → x < 256 → Counted s.nodes →
    activeBelow s.nodes 256 = [0, x] →
    ∃ t u, exec .build s = .next t ∧ getLink t.nodes.left 256 = 0 ∧ getLink t.nodes.right 256 = x ∧
      t.nodes.root = 256 ∧ exec .codegen t = .next u ∧
      getCode u.code 0#8 = [false] ∧ getCode u.code (BitVec.ofNat 8 x) = [true]

/-! ### SERIALIZE, DESERIALIZE, index fields -/

/-- R87, R88: the bytes of a field, and that decoding and encoding are inverse to each other. -/
def Obligations.IndexFieldsEncodeAndDecode : Prop :=
  ∀ (w : IdxWidth) (e : Endian),
    (∀ v : Int, fitsIdx w v = true → (idxBytes w e v).length = w.bytes ∧ unIdx w e (idxBytes w e v) = v) ∧
    (∀ bs : List Byte, bs.length = w.bytes → fitsIdx w (unIdx w e bs) = true ∧ idxBytes w e (unIdx w e bs) = bs) ∧
    (∀ (v : Int) (k : Nat), k < w.bytes → (idxBytes w .little v)[k]? = some (BitVec.ofInt 8 (v / 2 ^ (8 * k)))) ∧
    (∀ v : Int, idxBytes w .big v = (idxBytes w .little v).reverse)

/-- R86, R135, R63: the tree block, field by field at its offset, and the frame. -/
def Obligations.SerializeAppendsTheTreeBlock : Prop :=
  ∀ s : State, AllAnswersTrue s → ∃ t block, exec .serialize s = .next t ∧
    Memory.bytes t.dst = Memory.bytes s.dst ++ block ∧ block.length = 769 * s.cfg.width.bytes ∧
    (∀ n : Nat, 256 ≤ n → n < 512 →
      (block.drop (3 * s.cfg.width.bytes * (n - 256))).take s.cfg.width.bytes =
        idxBytes s.cfg.width s.cfg.endian (getLink s.nodes.left n) ∧
      (block.drop (3 * s.cfg.width.bytes * (n - 256) + s.cfg.width.bytes)).take s.cfg.width.bytes =
        idxBytes s.cfg.width s.cfg.endian (getLink s.nodes.right n) ∧
      (block.drop (3 * s.cfg.width.bytes * (n - 256) + 2 * s.cfg.width.bytes)).take s.cfg.width.bytes =
        idxBytes s.cfg.width s.cfg.endian (getLink s.nodes.parent n)) ∧
    block.drop (768 * s.cfg.width.bytes) = idxBytes s.cfg.width s.cfg.endian s.nodes.root ∧
    (s.dstlen.toNat + 769 * s.cfg.width.bytes < 2 ^ 64 →
      t.dstlen.toNat = s.dstlen.toNat + 769 * s.cfg.width.bytes) ∧
    t = { s with dst := t.dst, dstlen := t.dstlen, answers := s.answers.drop 769, phase := 8#5 }

/-- R137: both outcomes of DESERIALIZE, with their frames. -/
def Obligations.DeserializeLoadsTheTreeBlock : Prop :=
  ∀ s : State,
    (s.srclen.toNat < s.srcpos.toNat + 769 * s.cfg.width.bytes →
      exec .deserialize s = .next (takeError .insufficientData s)) ∧
    (s.srcpos.toNat + 769 * s.cfg.width.bytes ≤ s.srclen.toNat → ∃ t, exec .deserialize s = .next t ∧
      (∀ n : Nat, n < 256 →
        getLink t.nodes.left n = -1 ∧ getLink t.nodes.right n = -1 ∧ getLink t.nodes.parent n = -1) ∧
      (∀ n : Nat, 256 ≤ n → n < 512 →
        getLink t.nodes.left n = unIdx s.cfg.width s.cfg.endian
          (memRead (s.srcpos.toNat + 3 * s.cfg.width.bytes * (n - 256)) s.cfg.width.bytes s) ∧
        getLink t.nodes.right n = unIdx s.cfg.width s.cfg.endian
          (memRead (s.srcpos.toNat + 3 * s.cfg.width.bytes * (n - 256) + s.cfg.width.bytes) s.cfg.width.bytes s) ∧
        getLink t.nodes.parent n = unIdx s.cfg.width s.cfg.endian
          (memRead (s.srcpos.toNat + 3 * s.cfg.width.bytes * (n - 256) + 2 * s.cfg.width.bytes)
            s.cfg.width.bytes s)) ∧
      t.nodes.root = unIdx s.cfg.width s.cfg.endian
        (memRead (s.srcpos.toNat + 768 * s.cfg.width.bytes) s.cfg.width.bytes s) ∧
      t.srcpos.toNat = s.srcpos.toNat + 769 * s.cfg.width.bytes ∧
      t = { s with
        nodes :=
          { s.nodes with left := t.nodes.left, right := t.nodes.right, parent := t.nodes.parent, root := t.nodes.root }
        srcpos := t.srcpos, phase := 14#5 })

/-- R138: DESERIALIZE of the bytes SERIALIZE wrote, wherever they stand in the archive, restores the links of slots
256..511 and the root. -/
def Obligations.TreeSurvivesTheArchive : Prop :=
  ∀ (s u : State) (before block after : List Byte), AllAnswersTrue s →
    LinksFit s.cfg.width s.nodes.left → LinksFit s.cfg.width s.nodes.right → LinksFit s.cfg.width s.nodes.parent →
    fitsIdx s.cfg.width s.nodes.root = true → u.cfg.width = s.cfg.width → u.cfg.endian = s.cfg.endian →
    (∃ t, exec .serialize s = .next t ∧ Memory.bytes t.dst = Memory.bytes s.dst ++ block) →
    u.src = Memory.ofBytes (before ++ block ++ after) →
    u.srclen.toNat = (before ++ block ++ after).length → u.srcpos.toNat = before.length →
    ∃ v, exec .deserialize u = .next v ∧ v.phase = 14#5 ∧ v.nodes.root = s.nodes.root ∧
      ∀ n : Nat, 256 ≤ n → n < 512 →
        getLink v.nodes.left n = getLink s.nodes.left n ∧ getLink v.nodes.right n = getLink s.nodes.right n ∧
        getLink v.nodes.parent n = getLink s.nodes.parent n

/-! ### CODEGEN -/

/-- R150 to R152: over parent links that climb through internal nodes below 511, as BUILD makes them (R26 (e)),
CODEGEN completes; every code has at most 255 bits; a symbol without a parent has the empty code, and one whose parent
has none has one bit, 0 for a left child and 1 for a right child. -/
def Obligations.CodegenCompletesOnClimbingLinks : Prop :=
  ∀ s : State,
    (∀ i : Nat, i < 512 → getLink s.nodes.parent i ≠ -1 → ∃ p : Nat,
      getLink s.nodes.parent i = p ∧ i < p ∧ 256 ≤ p ∧ p ≤ 510) →
    ∃ t, exec .codegen s = .next t ∧ t = { s with code := t.code, phase := 9#5 } ∧
      ∀ b : Byte, (getCode t.code b).length ≤ 255 ∧
        (getLink s.nodes.parent b.toNat = -1 → getCode t.code b = []) ∧
        (∀ p : Nat, getLink s.nodes.parent b.toNat = p → getLink s.nodes.parent p = -1 →
          getCode t.code b = [getLink s.nodes.left p != (b.toNat : Int)])

/-- R154: over a tree BUILD made, the bits of a present leaf's code lead from the root to that leaf, and to no leaf
before. -/
def Obligations.CodesLeadFromTheRootToTheirLeaf : Prop :=
  ∀ s : State, BuiltTree s.nodes → ∃ t, exec .codegen s = .next t ∧
    ∀ b : Byte, getLink s.nodes.parent b.toNat ≠ -1 →
      follow s.nodes s.nodes.root (getCode t.code b) = b.toNat ∧
      ∀ k : Nat, k < (getCode t.code b).length →
        256 ≤ follow s.nodes s.nodes.root ((getCode t.code b).take k) ∧
        follow s.nodes s.nodes.root ((getCode t.code b).take k) ≤ 511

/-- R153: no code of a present leaf begins another's. -/
def Obligations.CodesOfPresentLeavesArePrefixFree : Prop :=
  ∀ s t : State, BuiltTree s.nodes → exec .codegen s = .next t →
    ∀ b c : Byte, b ≠ c → getLink s.nodes.parent b.toNat ≠ -1 → getLink s.nodes.parent c.toNat ≠ -1 →
      ¬ (getCode t.code b <+: getCode t.code c)

/-! ### PACK and UNPACK -/

/-- R160: AppendBit shifts in at the bottom and flushes the byte at eight bits. -/
def Obligations.AppendBitFlushesAtEightBits : Prop :=
  ∀ (s : State) (b : Bool),
    (s.nacc.toNat < 7 → ∃ t, appendBit b s = .go t ∧ t.nacc.toNat = s.nacc.toNat + 1 ∧
      t.acc.toNat = (2 * s.acc.toNat + b.toNat) % 256 ∧ t = { s with acc := t.acc, nacc := t.nacc }) ∧
    (s.nacc.toNat = 7 → nextAnswer s = true → ∃ t, appendBit b s = .go t ∧ t.nacc = 0#3 ∧ t.acc = 0#8 ∧
      Memory.bytes t.dst = Memory.bytes s.dst ++ [BitVec.ofNat 8 (2 * s.acc.toNat + b.toNat)] ∧
      t = { s with acc := 0#8, nacc := 0#3, dst := t.dst, dstlen := t.dstlen, answers := s.answers.tail }) ∧
    (s.nacc.toNat = 7 → nextAnswer s = false → ∃ t, appendBit b s = .raised t ∧ t.errcode = 5#3 ∧ t.dst = s.dst)

/-- R161, R162, R89, R163: PACK appends the whole bytes, most significant bit first, of the codes of the source bytes
in order, the terminator's code and eight zero bits, `floor(T/8) + 1` of them. -/
def Obligations.PackWritesThePayloadBits : Prop :=
  ∀ s : State, AllAnswersTrue s →
    ∃ (t : State) (v : List Byte) (bits : List Bool),
      bits = (srcBytes s).flatMap (getCode s.code) ++ getCode s.code 0#8 ∧
      exec .pack s = .next t ∧ Memory.bytes t.dst = Memory.bytes s.dst ++ v ∧
      v.length = bits.length / 8 + 1 ∧
      v.flatMap byteBits = (bits ++ List.replicate 8 false).take (8 * v.length) ∧
      t.nacc.toNat = bits.length % 8 ∧ t.srcpos = s.srclen ∧
      t = { s with
        acc := t.acc, nacc := t.nacc, srcpos := t.srcpos, dst := t.dst, dstlen := t.dstlen, phase := 16#5
        answers := s.answers.drop v.length }

/-- R166: a root that is no internal slot is StructuralInconsistency before anything is read or written. -/
def Obligations.UnpackTestsTheRootFirst : Prop :=
  ∀ s : State, (s.nodes.root < 256 ∨ 511 < s.nodes.root) →
    exec .unpack s = .next (takeError .structuralInconsistency s)

/-- R165, R167 to R170: UNPACK emits what the walk over the whole bit string emits, and ends as it ends; SRCPOS ends
just after the byte that held the last bit taken. -/
def Obligations.UnpackFollowsThePayloadBits : Prop :=
  ∀ s : State, AllAnswersTrue s → 256 ≤ s.nodes.root → s.nodes.root ≤ 511 → s.srcpos.toNat ≤ s.srclen.toNat →
    ∃ t, exec .unpack s = .next t ∧
      Memory.bytes t.dst = Memory.bytes s.dst ++
        (walkBits s.nodes s.nodes.root
          ((memRead s.srcpos.toNat (s.srclen.toNat - s.srcpos.toNat) s).flatMap byteBits)).1 ∧
      match (walkBits s.nodes s.nodes.root
          ((memRead s.srcpos.toNat (s.srclen.toNat - s.srcpos.toNat) s).flatMap byteBits)).2 with
      | .stopped k =>
        t.phase = 16#5 ∧ t.errcode = s.errcode ∧ t.status = s.status ∧ t.srcpos.toNat = s.srclen.toNat - k / 8
      | .missing k => t.phase = 18#5 ∧ t.errcode = 3#3 ∧ t.srcpos.toNat = s.srclen.toNat - k / 8
      | .starved => t.phase = 18#5 ∧ t.errcode = 2#3 ∧ t.srcpos = s.srclen

/-- R96, R97, R165: UNPACK is the NODE rows run one after another from the root. -/
def Obligations.UnpackIsItsNodeRowsInOrder : Prop :=
  ∀ s : State, s.phase = 14#5 → 256 ≤ s.nodes.root → s.nodes.root ≤ 511 →
    runNodeRows (2 * payloadBits s + 2) { s with nbq := 0#4, cur := s.nodes.root } = exec .unpack s

/-- R165, R169: the leaf rows. -/
def Obligations.LeafRowsStopOrEmit : Prop :=
  ∀ s : State, exec .nodeTerminator s = .next { s with phase := 16#5 } ∧
    ∀ sym : Byte,
      (nextAnswer s = true → ∃ t, exec (.nodeSymbol sym) s = .next t ∧
        Memory.bytes t.dst = Memory.bytes s.dst ++ [sym] ∧
        t = { s with dst := t.dst, dstlen := t.dstlen, cur := s.nodes.root, answers := s.answers.tail }) ∧
      (nextAnswer s = false →
        exec (.nodeSymbol sym) s = .next (takeError .ioFailure { s with answers := s.answers.tail }))

/-- R165, R167, R168: the row of an internal node: the bit from the queue or from the next source byte, the child it
leads to, and the two errors in the order of R215 (c). -/
def Obligations.InternalRowTakesOneBit : Prop :=
  ∀ (s : State) (slot : BitVec 8),
    (s.nbq = 0#4 → s.srclen.toNat ≤ s.srcpos.toNat →
      exec (.nodeInternal slot) s = .next (takeError .insufficientData s)) ∧
    (∀ (bit : Bool) (q : BitVec 8) (pos : Nat) (nbq : BitVec 4) (c : Int),
      ((s.nbq ≠ 0#4 ∧ bit = s.bq.getLsbD 7 ∧ q = s.bq <<< 1 ∧ pos = s.srcpos.toNat ∧ nbq = s.nbq - 1#4) ∨
       (s.nbq = 0#4 ∧ s.srcpos.toNat < s.srclen.toNat ∧ bit = (srcByte s s.srcpos.toNat).getLsbD 7 ∧
         q = srcByte s s.srcpos.toNat <<< 1 ∧ pos = s.srcpos.toNat + 1 ∧ nbq = 7#4)) →
      c = getLink (if bit then s.nodes.right else s.nodes.left) (256 + slot.toNat) →
      (0 ≤ c → c ≤ 511 → exec (.nodeInternal slot) s =
        .next { s with cur := c, bq := q, nbq := nbq, srcpos := BitVec.ofNat 64 pos }) ∧
      ((c < 0 ∨ 511 < c) → exec (.nodeInternal slot) s =
        .next (takeError .structuralInconsistency { s with bq := q, nbq := nbq, srcpos := BitVec.ofNat 64 pos })))

/-! ### The format controller -/

/-- R183, R186: the magic and the flag byte, and a failing append of either. -/
def Obligations.HeaderIsWritten : Prop :=
  ∀ s : State,
    (nextAnswer s = true → ∃ t u,
      exec .wrMagic s = .next t ∧
      Memory.bytes t.dst = Memory.bytes s.dst ++ [s.cfg.magic0, s.cfg.magic1, s.cfg.magic2, s.cfg.magic3] ∧
      t = { s with dst := t.dst, dstlen := t.dstlen, phase := 3#5, answers := s.answers.tail } ∧
      exec .wrFlag s = .next u ∧
      Memory.bytes u.dst = Memory.bytes s.dst ++ [if s.huff then 0x01#8 else 0x00#8] ∧
      u = { s with
        dst := u.dst, dstlen := u.dstlen, phase := if s.huff then 5#5 else 10#5, answers := s.answers.tail } ∧
      (s.dstlen.toNat + 4 < 2 ^ 64 →
        t.dstlen.toNat = s.dstlen.toNat + 4 ∧ u.dstlen.toNat = s.dstlen.toNat + 1)) ∧
    (nextAnswer s = false →
      exec .wrMagic s = .next (takeError .ioFailure { s with answers := s.answers.tail }) ∧
      exec .wrFlag s = .next (takeError .ioFailure { s with answers := s.answers.tail }))

/-- R184, R185: Huffman mode is chosen exactly when `3·SRCLEN > 1536·W`, which is `SRCLEN > 512·W`. -/
def Obligations.DecideChoosesByLengthAlone : Prop :=
  ∀ s : State, ∃ h : Bool, (h = true ↔ 1536 * s.cfg.width.bytes < 3 * s.srclen.toNat) ∧
    (h = true ↔ 512 * s.cfg.width.bytes < s.srclen.toNat) ∧
    exec .decideMode s = .next { s with huff := h, status := { s.status with huff := h }, phase := 4#5 }

/-- R188: COPY_ENC appends of each chunk, in order, all of it, or what stands before its first zero byte where its
last byte is zero. -/
def Obligations.CopyEncKeepsTheChunkRule : Prop :=
  ∀ s : State, AllAnswersTrue s → s.srcpos = 0#64 → ∃ t, exec .copyEnc s = .next t ∧
    Memory.bytes t.dst = Memory.bytes s.dst ++ ((List.range (chunkCount s)).flatMap fun c =>
      if srcByte s (c * s.cfg.chunk + s.cfg.chunkPred) = 0#8
      then (memRead (c * s.cfg.chunk) s.cfg.chunk s).takeWhile (· != 0#8)
      else memRead (c * s.cfg.chunk) s.cfg.chunk s) ∧
    t = { s with
      dst := t.dst, dstlen := t.dstlen, buf := t.buf, answers := t.answers, phase := 16#5
      srcpos := narrowSize (s.cfg.chunk * chunkCount s) }

/-- R189 (a), (e): a source without a zero byte is copied exactly, whatever CHUNK is; no source grows. -/
def Obligations.CopyEncIsExactWithoutZeroBytes : Prop :=
  ∀ s : State, AllAnswersTrue s → s.srcpos = 0#64 → ∃ (t : State) (v : List Byte),
    exec .copyEnc s = .next t ∧ t.phase = 16#5 ∧ Memory.bytes t.dst = Memory.bytes s.dst ++ v ∧
    v.length ≤ s.srclen.toNat ∧ ((∀ b ∈ srcBytes s, b ≠ 0#8) → v = srcBytes s)

/-- R194: COPY_DEC appends all remaining bytes, zeros included. -/
def Obligations.CopyDecCopiesTheRest : Prop :=
  ∀ s : State, AllAnswersTrue s → s.srcpos.toNat ≤ s.srclen.toNat → ∃ t, exec .copyDec s = .next t ∧
    Memory.bytes t.dst =
      Memory.bytes s.dst ++ memRead s.srcpos.toNat (s.srclen.toNat - s.srcpos.toNat) s ∧
    t = { s with dst := t.dst, dstlen := t.dstlen, srcpos := s.srclen, answers := t.answers, phase := 16#5 }

/-- R190, R191: RD_MAGIC. -/
def Obligations.ReadMagicMatchesByteForByte : Prop :=
  ∀ s : State,
    (s.srclen.toNat < 4 → exec .rdMagic s = .next (takeError .formatMismatch s)) ∧
    (4 ≤ s.srclen.toNat →
      (srcByte s 0 = s.cfg.magic0 ∧ srcByte s 1 = s.cfg.magic1 ∧ srcByte s 2 = s.cfg.magic2 ∧
        srcByte s 3 = s.cfg.magic3 → exec .rdMagic s = .next { s with srcpos := 4#64, phase := 12#5 }) ∧
      (¬(srcByte s 0 = s.cfg.magic0 ∧ srcByte s 1 = s.cfg.magic1 ∧ srcByte s 2 = s.cfg.magic2 ∧
        srcByte s 3 = s.cfg.magic3) →
        exec .rdMagic s = .next (takeError .formatMismatch { s with srcpos := 4#64 })))

/-- R192: RD_FLAG reads bit 0 and ignores bits 7:1. -/
def Obligations.ReadFlagLooksAtBitZero : Prop :=
  ∀ s : State,
    (s.srclen.toNat < 5 → exec .rdFlag s = .next (takeError .insufficientData s)) ∧
    (5 ≤ s.srclen.toNat → ∀ h : Bool, h = (srcByte s 4).getLsbD 0 →
      exec .rdFlag s = .next { s with
        srcpos := 5#64, huff := h, status := { s.status with huff := h }, phase := if h then 13#5 else 15#5 })

/-- R190, R192: the header rows. -/
def Obligations.HeaderRowsSelect : Prop :=
  ∀ s : State,
    (∀ m : BitVec 32,
      (m = s.cfg.magic0 ++ s.cfg.magic1 ++ s.cfg.magic2 ++ s.cfg.magic3 →
        exec (.hdrMagic m) s = .next { s with phase := 12#5 }) ∧
      (m ≠ s.cfg.magic0 ++ s.cfg.magic1 ++ s.cfg.magic2 ++ s.cfg.magic3 →
        exec (.hdrMagic m) s = .next (takeError .formatMismatch s))) ∧
    (∀ rsv : BitVec 7,
      exec (.hdrFlagHuff rsv) s =
        .next { s with huff := true, status := { s.status with huff := true }, phase := 13#5 } ∧
      exec (.hdrFlagVerb rsv) s =
        .next { s with huff := false, status := { s.status with huff := false }, phase := 15#5 })

/-- R96, R190, R192: RD_MAGIC and RD_FLAG are a read followed by the header row that the word read encodes. -/
def Obligations.HeaderReadsEndInTheirRows : Prop :=
  ∀ s : State,
    (4 ≤ s.srclen.toNat → ∀ i : Instr,
      decode .hdrMagic ((srcByte s 0 ++ srcByte s 1 ++ srcByte s 2 ++ srcByte s 3).toNat) = .instr i →
      exec .rdMagic s = exec i { s with srcpos := 4#64 }) ∧
    (5 ≤ s.srclen.toNat → ∀ i : Instr, decode .hdrFlag (srcByte s 4).toNat = .instr i →
      exec .rdFlag s = exec i { s with srcpos := 5#64 })

/-- R196: FINISH. -/
def Obligations.FinishFlushesAndReleases : Prop :=
  ∀ s : State,
    (nextAnswer s = true → exec .finish s = .next { s with
      status := { s.status with busy := false, done := true }, phase := 17#5, delivered := s.dst.length
      streamsOpen := false, answers := s.answers.tail }) ∧
    (nextAnswer s = false →
      exec .finish s = .next (takeError .ioFailure { s with answers := s.answers.tail }))

/-! ### Invariant, termination, whole commands -/

/-- The reset state meets the invariant. -/
def Obligations.ResetMeetsTheInvariant : Prop := Inv State.reset

/-- Every step keeps the invariant. -/
def Obligations.StepKeepsTheInvariant : Prop :=
  ∀ s t : State, Inv s → step s = .next t → Inv t

/-- R257: from the acceptance of a command, whatever the source, the parameters and the environment's answers, the
block rests in DONE or ERROR within ten phases. -/
def Obligations.EveryCommandComesToRest : Prop :=
  ∀ s : State, s.phase = 1#5 → (s.op = 1#2 ∨ s.op = 2#2) → s.status.busy = true → s.inputs = [] →
    ∃ t, steps 10 s = .next t ∧ t.status.busy = false ∧ (t.phase = 17#5 ∨ t.phase = 18#5)

/-- R190, R191: UNARCHIVE of anything that does not begin with the magic ends in FormatMismatch with an empty
destination. -/
def Obligations.UnarchiveOfAForeignFileWritesNothing : Prop :=
  ∀ (s : State) (bytes : List Byte), s.status.busy = false → AllAnswersTrue s → bytes.length < 2 ^ 64 →
    bytes.take 4 ≠ [s.cfg.magic0, s.cfg.magic1, s.cfg.magic2, s.cfg.magic3] →
    ∃ t, command 2#64 bytes s = .next t ∧ t.phase = 18#5 ∧ t.errcode = 1#3 ∧ t.dst = [] ∧ t.dstlen = 0#64

/-- R195, the verbatim side: a short source without a zero byte comes back exactly; the archive is the magic, a zero
flag byte and the source. -/
def Obligations.VerbatimRoundTrip : Prop :=
  ∀ (s : State) (bytes : List Byte), s.status.busy = false → AllAnswersTrue s →
    bytes.length ≤ 512 * s.cfg.width.bytes → (∀ b ∈ bytes, b ≠ 0#8) →
    ∃ t u, command 1#64 bytes s = .next t ∧ Succeeded t ∧
      Memory.bytes t.dst = [s.cfg.magic0, s.cfg.magic1, s.cfg.magic2, s.cfg.magic3, 0x00#8] ++ bytes ∧
      command 2#64 (Memory.bytes t.dst) t = .next u ∧ Succeeded u ∧ Memory.bytes u.dst = bytes

/-- R195: a source without a zero byte comes back exactly, in both modes. -/
def Obligations.ArchiveRoundTrip : Prop :=
  ∀ (s : State) (bytes : List Byte), s.status.busy = false → AllAnswersTrue s →
    bytes.length ≤ 2 ^ 31 - 2 → (∀ b ∈ bytes, b ≠ 0#8) →
    ∃ t u, command 1#64 bytes s = .next t ∧ Succeeded t ∧
      (t.huff = true ↔ 512 * s.cfg.width.bytes < bytes.length) ∧
      command 2#64 (Memory.bytes t.dst) t = .next u ∧ Succeeded u ∧ Memory.bytes u.dst = bytes

/-- R250: a long source of zero bytes only is archived without an error as a header, a block of all ones and one zero
byte, and that archive cannot be decoded. -/
def Obligations.ZeroOnlySourceCannotBeDecoded : Prop :=
  ∀ (s : State) (bytes : List Byte), s.status.busy = false → AllAnswersTrue s → bytes.length < 2 ^ 64 →
    512 * s.cfg.width.bytes < bytes.length → (∀ b ∈ bytes, b = 0#8) →
    ∃ t u, command 1#64 bytes s = .next t ∧ Succeeded t ∧
      Memory.bytes t.dst = [s.cfg.magic0, s.cfg.magic1, s.cfg.magic2, s.cfg.magic3, 0x01#8] ++
        List.replicate (769 * s.cfg.width.bytes) 0xFF#8 ++ [0x00#8] ∧
      command 2#64 (Memory.bytes t.dst) t = .next u ∧ u.phase = 18#5 ∧ u.errcode = 3#3 ∧ u.dst = []
end

