-- ==== Sys2Proof/Laws/Memory.lean ====
section
/-! SUPPORT. The byte streams: the canonical form is kept by every operation, and reads and appends agree with the
sequence of bytes. -/

namespace Sys2Proof.Machine

theorem cellsFrom_map_fst (a : Nat) (bs : List Byte) :
    (cellsFrom a bs).map (·.1) = List.range' a bs.length := by
  induction bs generalizing a with
  | nil => rfl
  | cons b bs ih => simp [cellsFrom, ih, List.range'_succ]

@[simp] theorem cellsFrom_map_snd (a : Nat) (bs : List Byte) : (cellsFrom a bs).map (·.2) = bs := by
  induction bs generalizing a with
  | nil => rfl
  | cons b bs ih => simp [cellsFrom, ih]

@[simp] theorem cellsFrom_length (a : Nat) (bs : List Byte) : (cellsFrom a bs).length = bs.length := by
  rw [← List.length_map (f := (·.2)), cellsFrom_map_snd]

theorem cellsFrom_append (a : Nat) (v w : List Byte) :
    cellsFrom a (v ++ w) = cellsFrom a v ++ cellsFrom (a + v.length) w := by
  induction v generalizing a with
  | nil => rfl
  | cons b v ih => simp [cellsFrom, ih, Nat.add_assoc, Nat.add_comm 1]

/-! ### The bytes of a stream -/

@[simp] theorem bytes_nil : Memory.bytes [] = [] := rfl

@[simp] theorem bytes_length (m : Memory) : (Memory.bytes m).length = m.length := by simp [Memory.bytes]

@[simp] theorem bytes_ofBytes (bs : List Byte) : Memory.bytes (Memory.ofBytes bs) = bs := by
  simp [Memory.bytes, Memory.ofBytes]

@[simp] theorem bytes_extend (m : Memory) (v : List Byte) :
    Memory.bytes (Memory.extend m v) = Memory.bytes m ++ v := by
  simp [Memory.bytes, Memory.extend]

@[simp] theorem ofBytes_length (bs : List Byte) : (Memory.ofBytes bs).length = bs.length := by
  simp [Memory.ofBytes]

@[simp] theorem extend_length (m : Memory) (v : List Byte) : (Memory.extend m v).length = m.length + v.length := by
  simp [Memory.extend]

@[simp] theorem extend_nil (m : Memory) : Memory.extend m [] = m := by simp [Memory.extend, cellsFrom]

theorem extend_extend (m : Memory) (v w : List Byte) :
    Memory.extend (Memory.extend m v) w = Memory.extend m (v ++ w) := by
  simp [Memory.extend, cellsFrom_append]

/-! ### The canonical form -/

theorem wf_iff (m : Memory) : Memory.wf m = true ↔ m.map (·.1) = List.range m.length := by simp [Memory.wf]

theorem wf_nil : Memory.wf [] = true := rfl

theorem wf_ofBytes (bs : List Byte) : Memory.wf (Memory.ofBytes bs) = true := by
  rw [wf_iff, Memory.ofBytes, cellsFrom_map_fst, cellsFrom_length, List.range_eq_range']

theorem wf_extend {m : Memory} (h : Memory.wf m = true) (v : List Byte) :
    Memory.wf (Memory.extend m v) = true := by
  rw [wf_iff] at h ⊢
  rw [extend_length, Memory.extend, List.map_append, h, cellsFrom_map_fst, List.range_add, List.range'_eq_map_range]

theorem wf_firstBytes {m : Memory} (h : Memory.wf m = true) (n : Nat) :
    Memory.wf (Memory.firstBytes m n) = true := by
  rw [wf_iff] at h ⊢
  rw [Memory.firstBytes, List.map_take, h, List.length_take, List.take_range]

/-- The form asked of every memory: addresses strictly rising. -/
theorem wf_strictly_rising {m : Memory} (h : Memory.wf m = true) : (m.map (·.1)).Pairwise (· < ·) := by
  rw [(wf_iff m).1 h]
  exact List.pairwise_lt_range

/-- Equal sequences of bytes are equal memories. -/
theorem wf_eq_ofBytes {m : Memory} (h : Memory.wf m = true) : m = Memory.ofBytes (Memory.bytes m) := by
  have h1 : m.map (·.1) = (Memory.ofBytes (Memory.bytes m)).map (·.1) := by
    rw [(wf_iff m).1 h, (wf_iff _).1 (wf_ofBytes _)]; simp
  have h2 : m.map (·.2) = (Memory.ofBytes (Memory.bytes m)).map (·.2) :=
    (bytes_ofBytes (Memory.bytes m)).symm
  have zip_back : ∀ l : Memory, (l.map (·.1)).zip (l.map (·.2)) = l := fun l => by
    induction l with
    | nil => rfl
    | cons c l ih => simpa using ih
  calc m = (m.map (·.1)).zip (m.map (·.2)) := (zip_back m).symm
    _ = _ := by rw [h1, h2, zip_back]

/-! ### Reading one byte -/

theorem readByte_cellsFrom (a k : Nat) (bs : List Byte) :
    Memory.readByte (cellsFrom a bs) (a + k) = bs[k]? := by
  induction bs generalizing a k with
  | nil => rfl
  | cons b bs ih =>
    cases k with
    | zero => simp [Memory.readByte, cellsFrom]
    | succ k =>
      have hne : (a == a + (k + 1)) = false := by simp
      have := ih (a + 1) k
      rw [show a + 1 + k = a + (k + 1) by omega] at this
      simpa [Memory.readByte, cellsFrom, hne] using this

/-- A read of a canonical stream is the byte at that place of its sequence. -/
theorem readByte_of_wf {m : Memory} (h : Memory.wf m = true) (a : Nat) :
    Memory.readByte m a = (Memory.bytes m)[a]? := by
  rw [wf_eq_ofBytes h, bytes_ofBytes]
  simpa [Memory.ofBytes] using readByte_cellsFrom 0 a (Memory.bytes m)

theorem readByte_ofBytes (bs : List Byte) (a : Nat) : Memory.readByte (Memory.ofBytes bs) a = bs[a]? := by
  rw [readByte_of_wf (wf_ofBytes bs), bytes_ofBytes]

end Sys2Proof.Machine
end

