-- ==== Sys2Proof/Laws/Operands.lean ====
section
/-! SUPPORT. Register files, index fields and register widths. -/

namespace Sys2Proof.Machine

/-! ### Register files -/

theorem tabulate_getElem? {α : Type} (n : Nat) (f : Nat → α) (i : Nat) :
    (tabulate n f)[i]? = if i < n then some (f i) else none := by
  by_cases h : i < n <;> simp [tabulate, h]

theorem getLink_tabulate (f : Nat → Int) {i : Nat} (h : i < 512) : getLink (tabulate 512 f) i = f i := by
  rw [getLink, tabulate_getElem?, if_pos h, Option.getD_some]

theorem getCode_tabulate (f : Nat → List Bool) (b : Byte) : getCode (tabulate 256 f) b = f b.toNat := by
  rw [getCode, tabulate_getElem?, if_pos b.isLt, Option.getD_some]

theorem getLink_set (v : Vector Int 512) (i j : Nat) (x : Int) :
    getLink (v.setIfInBounds i x) j = if i = j ∧ i < 512 then x else getLink v j := by
  unfold getLink
  rw [Vector.getElem?_setIfInBounds]
  by_cases hij : i = j
  · subst hij
    by_cases hi : i < 512 <;> simp [hi]
  · simp [hij]

theorem getCount_set (v : Vector Count 512) (i j : Nat) (x : Count) :
    getCount (v.setIfInBounds i x) j = if i = j ∧ i < 512 then x else getCount v j := by
  unfold getCount
  rw [Vector.getElem?_setIfInBounds]
  by_cases hij : i = j
  · subst hij
    by_cases hi : i < 512 <;> simp [hi]
  · simp [hij]

theorem getLink_replicate (x : Int) {i : Nat} (h : i < 512) : getLink (Vector.replicate 512 x) i = x := by
  simp [getLink, h]

theorem getCount_replicate (x : Count) {i : Nat} (h : i < 512) :
    getCount (Vector.replicate 512 x) i = x := by
  simp [getCount, h]

/-! ### Bytes of a number -/

@[simp] theorem leBytes_length (k p : Nat) : (leBytes k p).length = k := by
  induction k generalizing p with
  | zero => rfl
  | succ k ih => simp [leBytes, ih]

theorem leNat_leBytes (k p : Nat) : leNat (leBytes k p) = p % 256 ^ k := by
  induction k generalizing p with
  | zero => simp [leBytes, leNat, Nat.mod_one]
  | succ k ih =>
    rw [leBytes, leNat, ih, BitVec.toNat_ofNat, show (2 : Nat) ^ 8 = 256 from rfl, Nat.pow_succ',
      Nat.mod_mul (x := p)]

theorem leNat_lt (bs : List Byte) : leNat bs < 256 ^ bs.length := by
  induction bs with
  | nil => simp [leNat]
  | cons b bs ih =>
    have hb : b.toNat < 256 := b.isLt
    rw [leNat, List.length_cons, Nat.pow_succ]
    omega

theorem leBytes_leNat (bs : List Byte) : leBytes bs.length (leNat bs) = bs := by
  induction bs with
  | nil => rfl
  | cons b bs ih =>
    have hb : b.toNat < 256 := b.isLt
    have hdiv : (b.toNat + 256 * leNat bs) / 256 = leNat bs := by omega
    have hbyte : BitVec.ofNat 8 (b.toNat + 256 * leNat bs) = b := by
      apply BitVec.eq_of_toNat_eq
      rw [BitVec.toNat_ofNat]
      omega
    rw [List.length_cons, leBytes, leNat, hdiv, hbyte, ih]

@[simp] theorem inOrder_length (e : Endian) (bs : List Byte) : (inOrder e bs).length = bs.length := by
  cases e <;> simp [inOrder]

@[simp] theorem inOrder_inOrder (e : Endian) (bs : List Byte) : inOrder e (inOrder e bs) = bs := by
  cases e <;> simp [inOrder]

@[simp] theorem idxBytes_length (w : IdxWidth) (e : Endian) (v : Int) : (idxBytes w e v).length = w.bytes := by
  simp [idxBytes]

/-- Fields of one width end to end. -/
theorem idxFields_length (w : IdxWidth) (e : Endian) (vs : List Int) :
    ((vs.map (idxBytes w e)).flatten).length = vs.length * w.bytes := by
  induction vs with
  | nil => simp
  | cons v vs ih =>
    rw [List.map_cons, List.flatten_cons, List.length_append, ih, idxBytes_length, List.length_cons, Nat.add_mul,
      Nat.one_mul, Nat.add_comm]

/-! ### Register width -/

/-- A position or length that fits is held exactly (R9). -/
theorem narrowSize_toNat {n : Nat} (h : n < 2 ^ 64) : (narrowSize n).toNat = n := by
  simp only [narrowSize, h, if_true, BitVec.toNat_ofNat, Nat.mod_eq_of_lt]

theorem narrowSize_of_toNat (v : Size) : narrowSize v.toNat = v := by
  simp [narrowSize, v.isLt]

end Sys2Proof.Machine
end

