-- ==== Sys2Proof/Laws/State.lean ====
section
/-! SUPPORT. What each named update of the state does to each field: one lemma per field per update, each true by
rfl or by the update's own equation, so that no later proof unfolds a record update. -/

namespace Sys2Proof.Machine

/-! ### setPc -/

@[simp] theorem setPc_cfg (i : Instr) (s : State) : (setPc i s).cfg = s.cfg := rfl
@[simp] theorem setPc_nodes (i : Instr) (s : State) : (setPc i s).nodes = s.nodes := rfl
@[simp] theorem setPc_code (i : Instr) (s : State) : (setPc i s).code = s.code := rfl
@[simp] theorem setPc_acc (i : Instr) (s : State) : (setPc i s).acc = s.acc := rfl
@[simp] theorem setPc_nacc (i : Instr) (s : State) : (setPc i s).nacc = s.nacc := rfl
@[simp] theorem setPc_bq (i : Instr) (s : State) : (setPc i s).bq = s.bq := rfl
@[simp] theorem setPc_nbq (i : Instr) (s : State) : (setPc i s).nbq = s.nbq := rfl
@[simp] theorem setPc_cur (i : Instr) (s : State) : (setPc i s).cur = s.cur := rfl
@[simp] theorem setPc_huff (i : Instr) (s : State) : (setPc i s).huff = s.huff := rfl
@[simp] theorem setPc_phase (i : Instr) (s : State) : (setPc i s).phase = i.phaseCode := rfl
@[simp] theorem setPc_op (i : Instr) (s : State) : (setPc i s).op = s.op := rfl
@[simp] theorem setPc_status (i : Instr) (s : State) : (setPc i s).status = s.status := rfl
@[simp] theorem setPc_errcode (i : Instr) (s : State) : (setPc i s).errcode = s.errcode := rfl
@[simp] theorem setPc_srclen (i : Instr) (s : State) : (setPc i s).srclen = s.srclen := rfl
@[simp] theorem setPc_srcpos (i : Instr) (s : State) : (setPc i s).srcpos = s.srcpos := rfl
@[simp] theorem setPc_dstlen (i : Instr) (s : State) : (setPc i s).dstlen = s.dstlen := rfl
@[simp] theorem setPc_buf (i : Instr) (s : State) : (setPc i s).buf = s.buf := rfl
@[simp] theorem setPc_src (i : Instr) (s : State) : (setPc i s).src = s.src := rfl
@[simp] theorem setPc_dst (i : Instr) (s : State) : (setPc i s).dst = s.dst := rfl
@[simp] theorem setPc_delivered (i : Instr) (s : State) : (setPc i s).delivered = s.delivered := rfl
@[simp] theorem setPc_shown (i : Instr) (s : State) : (setPc i s).shown = s.shown := rfl
@[simp] theorem setPc_streamsOpen (i : Instr) (s : State) : (setPc i s).streamsOpen = s.streamsOpen := rfl
@[simp] theorem setPc_leftover (i : Instr) (s : State) : (setPc i s).leftover = s.leftover := rfl
@[simp] theorem setPc_answers (i : Instr) (s : State) : (setPc i s).answers = s.answers := rfl
@[simp] theorem setPc_answersAfter (i : Instr) (s : State) : (setPc i s).answersAfter = s.answersAfter := rfl
@[simp] theorem setPc_inputs (i : Instr) (s : State) : (setPc i s).inputs = s.inputs := rfl
@[simp] theorem setPc_hostData (i : Instr) (s : State) : (setPc i s).hostData = s.hostData := rfl
@[simp] theorem setPc_freeCount (i : Instr) (s : State) : (setPc i s).freeCount = s.freeCount := rfl

/-! ### setPos -/

@[simp] theorem setPos_cfg (p : Nat) (s : State) : (setPos p s).cfg = s.cfg := rfl
@[simp] theorem setPos_nodes (p : Nat) (s : State) : (setPos p s).nodes = s.nodes := rfl
@[simp] theorem setPos_code (p : Nat) (s : State) : (setPos p s).code = s.code := rfl
@[simp] theorem setPos_acc (p : Nat) (s : State) : (setPos p s).acc = s.acc := rfl
@[simp] theorem setPos_nacc (p : Nat) (s : State) : (setPos p s).nacc = s.nacc := rfl
@[simp] theorem setPos_bq (p : Nat) (s : State) : (setPos p s).bq = s.bq := rfl
@[simp] theorem setPos_nbq (p : Nat) (s : State) : (setPos p s).nbq = s.nbq := rfl
@[simp] theorem setPos_cur (p : Nat) (s : State) : (setPos p s).cur = s.cur := rfl
@[simp] theorem setPos_huff (p : Nat) (s : State) : (setPos p s).huff = s.huff := rfl
@[simp] theorem setPos_phase (p : Nat) (s : State) : (setPos p s).phase = s.phase := rfl
@[simp] theorem setPos_op (p : Nat) (s : State) : (setPos p s).op = s.op := rfl
@[simp] theorem setPos_status (p : Nat) (s : State) : (setPos p s).status = s.status := rfl
@[simp] theorem setPos_errcode (p : Nat) (s : State) : (setPos p s).errcode = s.errcode := rfl
@[simp] theorem setPos_srclen (p : Nat) (s : State) : (setPos p s).srclen = s.srclen := rfl
@[simp] theorem setPos_srcpos (p : Nat) (s : State) : (setPos p s).srcpos = narrowSize p := rfl
@[simp] theorem setPos_dstlen (p : Nat) (s : State) : (setPos p s).dstlen = s.dstlen := rfl
@[simp] theorem setPos_buf (p : Nat) (s : State) : (setPos p s).buf = s.buf := rfl
@[simp] theorem setPos_src (p : Nat) (s : State) : (setPos p s).src = s.src := rfl
@[simp] theorem setPos_dst (p : Nat) (s : State) : (setPos p s).dst = s.dst := rfl
@[simp] theorem setPos_delivered (p : Nat) (s : State) : (setPos p s).delivered = s.delivered := rfl
@[simp] theorem setPos_shown (p : Nat) (s : State) : (setPos p s).shown = s.shown := rfl
@[simp] theorem setPos_streamsOpen (p : Nat) (s : State) : (setPos p s).streamsOpen = s.streamsOpen := rfl
@[simp] theorem setPos_leftover (p : Nat) (s : State) : (setPos p s).leftover = s.leftover := rfl
@[simp] theorem setPos_answers (p : Nat) (s : State) : (setPos p s).answers = s.answers := rfl
@[simp] theorem setPos_answersAfter (p : Nat) (s : State) : (setPos p s).answersAfter = s.answersAfter := rfl
@[simp] theorem setPos_inputs (p : Nat) (s : State) : (setPos p s).inputs = s.inputs := rfl
@[simp] theorem setPos_hostData (p : Nat) (s : State) : (setPos p s).hostData = s.hostData := rfl
@[simp] theorem setPos_freeCount (p : Nat) (s : State) : (setPos p s).freeCount = s.freeCount := rfl

/-! ### popAnswer -/

@[simp] theorem popAnswer_cfg (s : State) : (popAnswer s).cfg = s.cfg := rfl
@[simp] theorem popAnswer_nodes (s : State) : (popAnswer s).nodes = s.nodes := rfl
@[simp] theorem popAnswer_code (s : State) : (popAnswer s).code = s.code := rfl
@[simp] theorem popAnswer_acc (s : State) : (popAnswer s).acc = s.acc := rfl
@[simp] theorem popAnswer_nacc (s : State) : (popAnswer s).nacc = s.nacc := rfl
@[simp] theorem popAnswer_bq (s : State) : (popAnswer s).bq = s.bq := rfl
@[simp] theorem popAnswer_nbq (s : State) : (popAnswer s).nbq = s.nbq := rfl
@[simp] theorem popAnswer_cur (s : State) : (popAnswer s).cur = s.cur := rfl
@[simp] theorem popAnswer_huff (s : State) : (popAnswer s).huff = s.huff := rfl
@[simp] theorem popAnswer_phase (s : State) : (popAnswer s).phase = s.phase := rfl
@[simp] theorem popAnswer_op (s : State) : (popAnswer s).op = s.op := rfl
@[simp] theorem popAnswer_status (s : State) : (popAnswer s).status = s.status := rfl
@[simp] theorem popAnswer_errcode (s : State) : (popAnswer s).errcode = s.errcode := rfl
@[simp] theorem popAnswer_srclen (s : State) : (popAnswer s).srclen = s.srclen := rfl
@[simp] theorem popAnswer_srcpos (s : State) : (popAnswer s).srcpos = s.srcpos := rfl
@[simp] theorem popAnswer_dstlen (s : State) : (popAnswer s).dstlen = s.dstlen := rfl
@[simp] theorem popAnswer_buf (s : State) : (popAnswer s).buf = s.buf := rfl
@[simp] theorem popAnswer_src (s : State) : (popAnswer s).src = s.src := rfl
@[simp] theorem popAnswer_dst (s : State) : (popAnswer s).dst = s.dst := rfl
@[simp] theorem popAnswer_delivered (s : State) : (popAnswer s).delivered = s.delivered := rfl
@[simp] theorem popAnswer_shown (s : State) : (popAnswer s).shown = s.shown := rfl
@[simp] theorem popAnswer_streamsOpen (s : State) : (popAnswer s).streamsOpen = s.streamsOpen := rfl
@[simp] theorem popAnswer_leftover (s : State) : (popAnswer s).leftover = s.leftover := rfl
@[simp] theorem popAnswer_answers (s : State) : (popAnswer s).answers = s.answers.tail := rfl
@[simp] theorem popAnswer_answersAfter (s : State) : (popAnswer s).answersAfter = s.answersAfter := rfl
@[simp] theorem popAnswer_inputs (s : State) : (popAnswer s).inputs = s.inputs := rfl
@[simp] theorem popAnswer_hostData (s : State) : (popAnswer s).hostData = s.hostData := rfl
@[simp] theorem popAnswer_freeCount (s : State) : (popAnswer s).freeCount = s.freeCount := rfl

/-! ### setHuff -/

@[simp] theorem setHuff_cfg (b : Bool) (s : State) : (setHuff b s).cfg = s.cfg := rfl
@[simp] theorem setHuff_nodes (b : Bool) (s : State) : (setHuff b s).nodes = s.nodes := rfl
@[simp] theorem setHuff_code (b : Bool) (s : State) : (setHuff b s).code = s.code := rfl
@[simp] theorem setHuff_acc (b : Bool) (s : State) : (setHuff b s).acc = s.acc := rfl
@[simp] theorem setHuff_nacc (b : Bool) (s : State) : (setHuff b s).nacc = s.nacc := rfl
@[simp] theorem setHuff_bq (b : Bool) (s : State) : (setHuff b s).bq = s.bq := rfl
@[simp] theorem setHuff_nbq (b : Bool) (s : State) : (setHuff b s).nbq = s.nbq := rfl
@[simp] theorem setHuff_cur (b : Bool) (s : State) : (setHuff b s).cur = s.cur := rfl
@[simp] theorem setHuff_huff (b : Bool) (s : State) : (setHuff b s).huff = b := rfl
@[simp] theorem setHuff_phase (b : Bool) (s : State) : (setHuff b s).phase = s.phase := rfl
@[simp] theorem setHuff_op (b : Bool) (s : State) : (setHuff b s).op = s.op := rfl
@[simp] theorem setHuff_status (b : Bool) (s : State) : (setHuff b s).status = { s.status with huff := b } := rfl
@[simp] theorem setHuff_errcode (b : Bool) (s : State) : (setHuff b s).errcode = s.errcode := rfl
@[simp] theorem setHuff_srclen (b : Bool) (s : State) : (setHuff b s).srclen = s.srclen := rfl
@[simp] theorem setHuff_srcpos (b : Bool) (s : State) : (setHuff b s).srcpos = s.srcpos := rfl
@[simp] theorem setHuff_dstlen (b : Bool) (s : State) : (setHuff b s).dstlen = s.dstlen := rfl
@[simp] theorem setHuff_buf (b : Bool) (s : State) : (setHuff b s).buf = s.buf := rfl
@[simp] theorem setHuff_src (b : Bool) (s : State) : (setHuff b s).src = s.src := rfl
@[simp] theorem setHuff_dst (b : Bool) (s : State) : (setHuff b s).dst = s.dst := rfl
@[simp] theorem setHuff_delivered (b : Bool) (s : State) : (setHuff b s).delivered = s.delivered := rfl
@[simp] theorem setHuff_shown (b : Bool) (s : State) : (setHuff b s).shown = s.shown := rfl
@[simp] theorem setHuff_streamsOpen (b : Bool) (s : State) : (setHuff b s).streamsOpen = s.streamsOpen := rfl
@[simp] theorem setHuff_leftover (b : Bool) (s : State) : (setHuff b s).leftover = s.leftover := rfl
@[simp] theorem setHuff_answers (b : Bool) (s : State) : (setHuff b s).answers = s.answers := rfl
@[simp] theorem setHuff_answersAfter (b : Bool) (s : State) : (setHuff b s).answersAfter = s.answersAfter := rfl
@[simp] theorem setHuff_inputs (b : Bool) (s : State) : (setHuff b s).inputs = s.inputs := rfl
@[simp] theorem setHuff_hostData (b : Bool) (s : State) : (setHuff b s).hostData = s.hostData := rfl
@[simp] theorem setHuff_freeCount (b : Bool) (s : State) : (setHuff b s).freeCount = s.freeCount := rfl

/-! ### releaseStreams -/

@[simp] theorem releaseStreams_cfg (s : State) : (releaseStreams s).cfg = s.cfg := rfl
@[simp] theorem releaseStreams_nodes (s : State) : (releaseStreams s).nodes = s.nodes := rfl
@[simp] theorem releaseStreams_code (s : State) : (releaseStreams s).code = s.code := rfl
@[simp] theorem releaseStreams_acc (s : State) : (releaseStreams s).acc = s.acc := rfl
@[simp] theorem releaseStreams_nacc (s : State) : (releaseStreams s).nacc = s.nacc := rfl
@[simp] theorem releaseStreams_bq (s : State) : (releaseStreams s).bq = s.bq := rfl
@[simp] theorem releaseStreams_nbq (s : State) : (releaseStreams s).nbq = s.nbq := rfl
@[simp] theorem releaseStreams_cur (s : State) : (releaseStreams s).cur = s.cur := rfl
@[simp] theorem releaseStreams_huff (s : State) : (releaseStreams s).huff = s.huff := rfl
@[simp] theorem releaseStreams_phase (s : State) : (releaseStreams s).phase = s.phase := rfl
@[simp] theorem releaseStreams_op (s : State) : (releaseStreams s).op = s.op := rfl
@[simp] theorem releaseStreams_status (s : State) : (releaseStreams s).status = s.status := rfl
@[simp] theorem releaseStreams_errcode (s : State) : (releaseStreams s).errcode = s.errcode := rfl
@[simp] theorem releaseStreams_srclen (s : State) : (releaseStreams s).srclen = s.srclen := rfl
@[simp] theorem releaseStreams_srcpos (s : State) : (releaseStreams s).srcpos = s.srcpos := rfl
@[simp] theorem releaseStreams_dstlen (s : State) : (releaseStreams s).dstlen = s.dstlen := rfl
@[simp] theorem releaseStreams_buf (s : State) : (releaseStreams s).buf = s.buf := rfl
@[simp] theorem releaseStreams_src (s : State) : (releaseStreams s).src = s.src := rfl
@[simp] theorem releaseStreams_dst (s : State) : (releaseStreams s).dst = s.dst := rfl
@[simp] theorem releaseStreams_delivered (s : State) : (releaseStreams s).delivered = s.dst.length := rfl
@[simp] theorem releaseStreams_shown (s : State) : (releaseStreams s).shown = s.shown := rfl
@[simp] theorem releaseStreams_streamsOpen (s : State) : (releaseStreams s).streamsOpen = false := rfl
@[simp] theorem releaseStreams_leftover (s : State) : (releaseStreams s).leftover = s.leftover := rfl
@[simp] theorem releaseStreams_answers (s : State) : (releaseStreams s).answers = s.answers := rfl
@[simp] theorem releaseStreams_answersAfter (s : State) : (releaseStreams s).answersAfter = s.answersAfter := rfl
@[simp] theorem releaseStreams_inputs (s : State) : (releaseStreams s).inputs = s.inputs := rfl
@[simp] theorem releaseStreams_hostData (s : State) : (releaseStreams s).hostData = s.hostData := rfl
@[simp] theorem releaseStreams_freeCount (s : State) : (releaseStreams s).freeCount = s.freeCount := rfl

/-! ### newDestination -/

@[simp] theorem newDestination_cfg (s : State) : (newDestination s).cfg = s.cfg := rfl
@[simp] theorem newDestination_nodes (s : State) : (newDestination s).nodes = s.nodes := rfl
@[simp] theorem newDestination_code (s : State) : (newDestination s).code = s.code := rfl
@[simp] theorem newDestination_acc (s : State) : (newDestination s).acc = s.acc := rfl
@[simp] theorem newDestination_nacc (s : State) : (newDestination s).nacc = s.nacc := rfl
@[simp] theorem newDestination_bq (s : State) : (newDestination s).bq = s.bq := rfl
@[simp] theorem newDestination_nbq (s : State) : (newDestination s).nbq = s.nbq := rfl
@[simp] theorem newDestination_cur (s : State) : (newDestination s).cur = s.cur := rfl
@[simp] theorem newDestination_huff (s : State) : (newDestination s).huff = s.huff := rfl
@[simp] theorem newDestination_phase (s : State) : (newDestination s).phase = s.phase := rfl
@[simp] theorem newDestination_op (s : State) : (newDestination s).op = s.op := rfl
@[simp] theorem newDestination_status (s : State) : (newDestination s).status = s.status := rfl
@[simp] theorem newDestination_errcode (s : State) : (newDestination s).errcode = s.errcode := rfl
@[simp] theorem newDestination_srclen (s : State) : (newDestination s).srclen = s.srclen := rfl
@[simp] theorem newDestination_srcpos (s : State) : (newDestination s).srcpos = s.srcpos := rfl
@[simp] theorem newDestination_dstlen (s : State) : (newDestination s).dstlen = s.dstlen := rfl
@[simp] theorem newDestination_buf (s : State) : (newDestination s).buf = s.buf := rfl
@[simp] theorem newDestination_src (s : State) : (newDestination s).src = s.src := rfl
@[simp] theorem newDestination_dst (s : State) : (newDestination s).dst = [] := rfl
@[simp] theorem newDestination_delivered (s : State) : (newDestination s).delivered = 0 := rfl
@[simp] theorem newDestination_shown (s : State) : (newDestination s).shown = 0 := rfl
@[simp] theorem newDestination_streamsOpen (s : State) : (newDestination s).streamsOpen = s.streamsOpen := rfl
@[simp] theorem newDestination_leftover (s : State) : (newDestination s).leftover = s.leftover := rfl
@[simp] theorem newDestination_answers (s : State) : (newDestination s).answers = s.answers := rfl
@[simp] theorem newDestination_answersAfter (s : State) : (newDestination s).answersAfter = s.answersAfter := rfl
@[simp] theorem newDestination_inputs (s : State) : (newDestination s).inputs = s.inputs := rfl
@[simp] theorem newDestination_hostData (s : State) : (newDestination s).hostData = s.hostData := rfl
@[simp] theorem newDestination_freeCount (s : State) : (newDestination s).freeCount = s.freeCount := rfl

/-! ### startOperation -/

@[simp] theorem startOperation_cfg (s : State) : (startOperation s).cfg = s.cfg := by simp only [startOperation]
@[simp] theorem startOperation_nodes (s : State) : (startOperation s).nodes = initialNodes := by simp only [startOperation]
@[simp] theorem startOperation_code (s : State) : (startOperation s).code = s.code := by simp only [startOperation]
@[simp] theorem startOperation_acc (s : State) : (startOperation s).acc = s.acc := by simp only [startOperation]
@[simp] theorem startOperation_nacc (s : State) : (startOperation s).nacc = s.nacc := by simp only [startOperation]
@[simp] theorem startOperation_bq (s : State) : (startOperation s).bq = s.bq := by simp only [startOperation]
@[simp] theorem startOperation_nbq (s : State) : (startOperation s).nbq = s.nbq := by simp only [startOperation]
@[simp] theorem startOperation_cur (s : State) : (startOperation s).cur = s.cur := by simp only [startOperation]
@[simp] theorem startOperation_huff (s : State) : (startOperation s).huff = s.huff := by simp only [startOperation]
@[simp] theorem startOperation_phase (s : State) : (startOperation s).phase = s.phase := by simp only [startOperation]
@[simp] theorem startOperation_op (s : State) : (startOperation s).op = s.op := by simp only [startOperation]
@[simp] theorem startOperation_status (s : State) : (startOperation s).status = s.status := by simp only [startOperation]
@[simp] theorem startOperation_errcode (s : State) : (startOperation s).errcode = s.errcode := by simp only [startOperation]
@[simp] theorem startOperation_srclen (s : State) : (startOperation s).srclen = s.srclen := by simp only [startOperation]
@[simp] theorem startOperation_srcpos (s : State) : (startOperation s).srcpos = 0#64 := by simp only [startOperation]
@[simp] theorem startOperation_dstlen (s : State) : (startOperation s).dstlen = 0#64 := by simp only [startOperation]
@[simp] theorem startOperation_buf (s : State) : (startOperation s).buf = s.buf := by simp only [startOperation]
@[simp] theorem startOperation_src (s : State) : (startOperation s).src = s.src := by simp only [startOperation]
@[simp] theorem startOperation_dst (s : State) : (startOperation s).dst = s.dst := by simp only [startOperation]
@[simp] theorem startOperation_delivered (s : State) : (startOperation s).delivered = s.delivered := by simp only [startOperation]
@[simp] theorem startOperation_shown (s : State) : (startOperation s).shown = s.shown := by simp only [startOperation]
@[simp] theorem startOperation_streamsOpen (s : State) : (startOperation s).streamsOpen = true := by simp only [startOperation]
@[simp] theorem startOperation_leftover (s : State) : (startOperation s).leftover = s.leftover := by simp only [startOperation]
@[simp] theorem startOperation_answers (s : State) : (startOperation s).answers = s.answers := by simp only [startOperation]
@[simp] theorem startOperation_answersAfter (s : State) : (startOperation s).answersAfter = s.answersAfter := by simp only [startOperation]
@[simp] theorem startOperation_inputs (s : State) : (startOperation s).inputs = s.inputs := by simp only [startOperation]
@[simp] theorem startOperation_hostData (s : State) : (startOperation s).hostData = s.hostData := by simp only [startOperation]
@[simp] theorem startOperation_freeCount (s : State) : (startOperation s).freeCount = s.freeCount := by simp only [startOperation]

/-! ### takeError -/

@[simp] theorem takeError_cfg (x : ErrCode) (s : State) : (takeError x s).cfg = s.cfg := rfl
@[simp] theorem takeError_nodes (x : ErrCode) (s : State) : (takeError x s).nodes = s.nodes := rfl
@[simp] theorem takeError_code (x : ErrCode) (s : State) : (takeError x s).code = s.code := rfl
@[simp] theorem takeError_acc (x : ErrCode) (s : State) : (takeError x s).acc = s.acc := rfl
@[simp] theorem takeError_nacc (x : ErrCode) (s : State) : (takeError x s).nacc = s.nacc := rfl
@[simp] theorem takeError_bq (x : ErrCode) (s : State) : (takeError x s).bq = s.bq := rfl
@[simp] theorem takeError_nbq (x : ErrCode) (s : State) : (takeError x s).nbq = s.nbq := rfl
@[simp] theorem takeError_cur (x : ErrCode) (s : State) : (takeError x s).cur = s.cur := rfl
@[simp] theorem takeError_huff (x : ErrCode) (s : State) : (takeError x s).huff = s.huff := rfl
@[simp] theorem takeError_phase (x : ErrCode) (s : State) : (takeError x s).phase = 18#5 := rfl
@[simp] theorem takeError_op (x : ErrCode) (s : State) : (takeError x s).op = s.op := rfl
@[simp] theorem takeError_status (x : ErrCode) (s : State) : (takeError x s).status = s.status.failed := rfl
@[simp] theorem takeError_errcode (x : ErrCode) (s : State) : (takeError x s).errcode = errNumber x := rfl
@[simp] theorem takeError_srclen (x : ErrCode) (s : State) : (takeError x s).srclen = s.srclen := rfl
@[simp] theorem takeError_srcpos (x : ErrCode) (s : State) : (takeError x s).srcpos = s.srcpos := rfl
@[simp] theorem takeError_dstlen (x : ErrCode) (s : State) : (takeError x s).dstlen = s.dstlen := rfl
@[simp] theorem takeError_buf (x : ErrCode) (s : State) : (takeError x s).buf = s.buf := rfl
@[simp] theorem takeError_src (x : ErrCode) (s : State) : (takeError x s).src = s.src := rfl
@[simp] theorem takeError_dst (x : ErrCode) (s : State) : (takeError x s).dst = s.dst := rfl
@[simp] theorem takeError_delivered (x : ErrCode) (s : State) : (takeError x s).delivered = s.dst.length := rfl
@[simp] theorem takeError_shown (x : ErrCode) (s : State) : (takeError x s).shown = s.shown := rfl
@[simp] theorem takeError_streamsOpen (x : ErrCode) (s : State) : (takeError x s).streamsOpen = false := rfl
@[simp] theorem takeError_leftover (x : ErrCode) (s : State) : (takeError x s).leftover = s.leftover := rfl
@[simp] theorem takeError_answers (x : ErrCode) (s : State) : (takeError x s).answers = s.answers := rfl
@[simp] theorem takeError_answersAfter (x : ErrCode) (s : State) : (takeError x s).answersAfter = s.answersAfter := rfl
@[simp] theorem takeError_inputs (x : ErrCode) (s : State) : (takeError x s).inputs = s.inputs := rfl
@[simp] theorem takeError_hostData (x : ErrCode) (s : State) : (takeError x s).hostData = s.hostData := rfl
@[simp] theorem takeError_freeCount (x : ErrCode) (s : State) : (takeError x s).freeCount = s.freeCount := rfl

/-! ### appendBytes -/

@[simp] theorem appendBytes_cfg (v : List Byte) (s : State) : (appendBytes v s).cfg = s.cfg := rfl
@[simp] theorem appendBytes_nodes (v : List Byte) (s : State) : (appendBytes v s).nodes = s.nodes := rfl
@[simp] theorem appendBytes_code (v : List Byte) (s : State) : (appendBytes v s).code = s.code := rfl
@[simp] theorem appendBytes_acc (v : List Byte) (s : State) : (appendBytes v s).acc = s.acc := rfl
@[simp] theorem appendBytes_nacc (v : List Byte) (s : State) : (appendBytes v s).nacc = s.nacc := rfl
@[simp] theorem appendBytes_bq (v : List Byte) (s : State) : (appendBytes v s).bq = s.bq := rfl
@[simp] theorem appendBytes_nbq (v : List Byte) (s : State) : (appendBytes v s).nbq = s.nbq := rfl
@[simp] theorem appendBytes_cur (v : List Byte) (s : State) : (appendBytes v s).cur = s.cur := rfl
@[simp] theorem appendBytes_huff (v : List Byte) (s : State) : (appendBytes v s).huff = s.huff := rfl
@[simp] theorem appendBytes_phase (v : List Byte) (s : State) : (appendBytes v s).phase = s.phase := rfl
@[simp] theorem appendBytes_op (v : List Byte) (s : State) : (appendBytes v s).op = s.op := rfl
@[simp] theorem appendBytes_status (v : List Byte) (s : State) : (appendBytes v s).status = s.status := rfl
@[simp] theorem appendBytes_errcode (v : List Byte) (s : State) : (appendBytes v s).errcode = s.errcode := rfl
@[simp] theorem appendBytes_srclen (v : List Byte) (s : State) : (appendBytes v s).srclen = s.srclen := rfl
@[simp] theorem appendBytes_srcpos (v : List Byte) (s : State) : (appendBytes v s).srcpos = s.srcpos := rfl
@[simp] theorem appendBytes_dstlen (v : List Byte) (s : State) : (appendBytes v s).dstlen = narrowSize (s.dstlen.toNat + v.length) := rfl
@[simp] theorem appendBytes_buf (v : List Byte) (s : State) : (appendBytes v s).buf = s.buf := rfl
@[simp] theorem appendBytes_src (v : List Byte) (s : State) : (appendBytes v s).src = s.src := rfl
@[simp] theorem appendBytes_dst (v : List Byte) (s : State) : (appendBytes v s).dst = Memory.extend s.dst v := rfl
@[simp] theorem appendBytes_delivered (v : List Byte) (s : State) : (appendBytes v s).delivered = s.delivered := rfl
@[simp] theorem appendBytes_shown (v : List Byte) (s : State) : (appendBytes v s).shown = s.shown := rfl
@[simp] theorem appendBytes_streamsOpen (v : List Byte) (s : State) : (appendBytes v s).streamsOpen = s.streamsOpen := rfl
@[simp] theorem appendBytes_leftover (v : List Byte) (s : State) : (appendBytes v s).leftover = s.leftover := rfl
@[simp] theorem appendBytes_answers (v : List Byte) (s : State) : (appendBytes v s).answers = s.answers := rfl
@[simp] theorem appendBytes_answersAfter (v : List Byte) (s : State) : (appendBytes v s).answersAfter = s.answersAfter := rfl
@[simp] theorem appendBytes_inputs (v : List Byte) (s : State) : (appendBytes v s).inputs = s.inputs := rfl
@[simp] theorem appendBytes_hostData (v : List Byte) (s : State) : (appendBytes v s).hostData = s.hostData := rfl
@[simp] theorem appendBytes_freeCount (v : List Byte) (s : State) : (appendBytes v s).freeCount = s.freeCount := rfl

/-! ### shiftIn -/

@[simp] theorem shiftIn_cfg (b : Bool) (s : State) : (shiftIn b s).cfg = s.cfg := rfl
@[simp] theorem shiftIn_nodes (b : Bool) (s : State) : (shiftIn b s).nodes = s.nodes := rfl
@[simp] theorem shiftIn_code (b : Bool) (s : State) : (shiftIn b s).code = s.code := rfl
@[simp] theorem shiftIn_acc (b : Bool) (s : State) : (shiftIn b s).acc = (s.acc.concat b).setWidth 8 := rfl
@[simp] theorem shiftIn_nacc (b : Bool) (s : State) : (shiftIn b s).nacc = s.nacc + 1#3 := rfl
@[simp] theorem shiftIn_bq (b : Bool) (s : State) : (shiftIn b s).bq = s.bq := rfl
@[simp] theorem shiftIn_nbq (b : Bool) (s : State) : (shiftIn b s).nbq = s.nbq := rfl
@[simp] theorem shiftIn_cur (b : Bool) (s : State) : (shiftIn b s).cur = s.cur := rfl
@[simp] theorem shiftIn_huff (b : Bool) (s : State) : (shiftIn b s).huff = s.huff := rfl
@[simp] theorem shiftIn_phase (b : Bool) (s : State) : (shiftIn b s).phase = s.phase := rfl
@[simp] theorem shiftIn_op (b : Bool) (s : State) : (shiftIn b s).op = s.op := rfl
@[simp] theorem shiftIn_status (b : Bool) (s : State) : (shiftIn b s).status = s.status := rfl
@[simp] theorem shiftIn_errcode (b : Bool) (s : State) : (shiftIn b s).errcode = s.errcode := rfl
@[simp] theorem shiftIn_srclen (b : Bool) (s : State) : (shiftIn b s).srclen = s.srclen := rfl
@[simp] theorem shiftIn_srcpos (b : Bool) (s : State) : (shiftIn b s).srcpos = s.srcpos := rfl
@[simp] theorem shiftIn_dstlen (b : Bool) (s : State) : (shiftIn b s).dstlen = s.dstlen := rfl
@[simp] theorem shiftIn_buf (b : Bool) (s : State) : (shiftIn b s).buf = s.buf := rfl
@[simp] theorem shiftIn_src (b : Bool) (s : State) : (shiftIn b s).src = s.src := rfl
@[simp] theorem shiftIn_dst (b : Bool) (s : State) : (shiftIn b s).dst = s.dst := rfl
@[simp] theorem shiftIn_delivered (b : Bool) (s : State) : (shiftIn b s).delivered = s.delivered := rfl
@[simp] theorem shiftIn_shown (b : Bool) (s : State) : (shiftIn b s).shown = s.shown := rfl
@[simp] theorem shiftIn_streamsOpen (b : Bool) (s : State) : (shiftIn b s).streamsOpen = s.streamsOpen := rfl
@[simp] theorem shiftIn_leftover (b : Bool) (s : State) : (shiftIn b s).leftover = s.leftover := rfl
@[simp] theorem shiftIn_answers (b : Bool) (s : State) : (shiftIn b s).answers = s.answers := rfl
@[simp] theorem shiftIn_answersAfter (b : Bool) (s : State) : (shiftIn b s).answersAfter = s.answersAfter := rfl
@[simp] theorem shiftIn_inputs (b : Bool) (s : State) : (shiftIn b s).inputs = s.inputs := rfl
@[simp] theorem shiftIn_hostData (b : Bool) (s : State) : (shiftIn b s).hostData = s.hostData := rfl
@[simp] theorem shiftIn_freeCount (b : Bool) (s : State) : (shiftIn b s).freeCount = s.freeCount := rfl

/-! ### clearAcc -/

@[simp] theorem clearAcc_cfg (s : State) : (clearAcc s).cfg = s.cfg := rfl
@[simp] theorem clearAcc_nodes (s : State) : (clearAcc s).nodes = s.nodes := rfl
@[simp] theorem clearAcc_code (s : State) : (clearAcc s).code = s.code := rfl
@[simp] theorem clearAcc_acc (s : State) : (clearAcc s).acc = 0#8 := rfl
@[simp] theorem clearAcc_nacc (s : State) : (clearAcc s).nacc = 0#3 := rfl
@[simp] theorem clearAcc_bq (s : State) : (clearAcc s).bq = s.bq := rfl
@[simp] theorem clearAcc_nbq (s : State) : (clearAcc s).nbq = s.nbq := rfl
@[simp] theorem clearAcc_cur (s : State) : (clearAcc s).cur = s.cur := rfl
@[simp] theorem clearAcc_huff (s : State) : (clearAcc s).huff = s.huff := rfl
@[simp] theorem clearAcc_phase (s : State) : (clearAcc s).phase = s.phase := rfl
@[simp] theorem clearAcc_op (s : State) : (clearAcc s).op = s.op := rfl
@[simp] theorem clearAcc_status (s : State) : (clearAcc s).status = s.status := rfl
@[simp] theorem clearAcc_errcode (s : State) : (clearAcc s).errcode = s.errcode := rfl
@[simp] theorem clearAcc_srclen (s : State) : (clearAcc s).srclen = s.srclen := rfl
@[simp] theorem clearAcc_srcpos (s : State) : (clearAcc s).srcpos = s.srcpos := rfl
@[simp] theorem clearAcc_dstlen (s : State) : (clearAcc s).dstlen = s.dstlen := rfl
@[simp] theorem clearAcc_buf (s : State) : (clearAcc s).buf = s.buf := rfl
@[simp] theorem clearAcc_src (s : State) : (clearAcc s).src = s.src := rfl
@[simp] theorem clearAcc_dst (s : State) : (clearAcc s).dst = s.dst := rfl
@[simp] theorem clearAcc_delivered (s : State) : (clearAcc s).delivered = s.delivered := rfl
@[simp] theorem clearAcc_shown (s : State) : (clearAcc s).shown = s.shown := rfl
@[simp] theorem clearAcc_streamsOpen (s : State) : (clearAcc s).streamsOpen = s.streamsOpen := rfl
@[simp] theorem clearAcc_leftover (s : State) : (clearAcc s).leftover = s.leftover := rfl
@[simp] theorem clearAcc_answers (s : State) : (clearAcc s).answers = s.answers := rfl
@[simp] theorem clearAcc_answersAfter (s : State) : (clearAcc s).answersAfter = s.answersAfter := rfl
@[simp] theorem clearAcc_inputs (s : State) : (clearAcc s).inputs = s.inputs := rfl
@[simp] theorem clearAcc_hostData (s : State) : (clearAcc s).hostData = s.hostData := rfl
@[simp] theorem clearAcc_freeCount (s : State) : (clearAcc s).freeCount = s.freeCount := rfl

/-! ### startWalk -/

@[simp] theorem startWalk_cfg (s : State) : (startWalk s).cfg = s.cfg := rfl
@[simp] theorem startWalk_nodes (s : State) : (startWalk s).nodes = s.nodes := rfl
@[simp] theorem startWalk_code (s : State) : (startWalk s).code = s.code := rfl
@[simp] theorem startWalk_acc (s : State) : (startWalk s).acc = s.acc := rfl
@[simp] theorem startWalk_nacc (s : State) : (startWalk s).nacc = s.nacc := rfl
@[simp] theorem startWalk_bq (s : State) : (startWalk s).bq = s.bq := rfl
@[simp] theorem startWalk_nbq (s : State) : (startWalk s).nbq = 0#4 := rfl
@[simp] theorem startWalk_cur (s : State) : (startWalk s).cur = s.nodes.root := rfl
@[simp] theorem startWalk_huff (s : State) : (startWalk s).huff = s.huff := rfl
@[simp] theorem startWalk_phase (s : State) : (startWalk s).phase = s.phase := rfl
@[simp] theorem startWalk_op (s : State) : (startWalk s).op = s.op := rfl
@[simp] theorem startWalk_status (s : State) : (startWalk s).status = s.status := rfl
@[simp] theorem startWalk_errcode (s : State) : (startWalk s).errcode = s.errcode := rfl
@[simp] theorem startWalk_srclen (s : State) : (startWalk s).srclen = s.srclen := rfl
@[simp] theorem startWalk_srcpos (s : State) : (startWalk s).srcpos = s.srcpos := rfl
@[simp] theorem startWalk_dstlen (s : State) : (startWalk s).dstlen = s.dstlen := rfl
@[simp] theorem startWalk_buf (s : State) : (startWalk s).buf = s.buf := rfl
@[simp] theorem startWalk_src (s : State) : (startWalk s).src = s.src := rfl
@[simp] theorem startWalk_dst (s : State) : (startWalk s).dst = s.dst := rfl
@[simp] theorem startWalk_delivered (s : State) : (startWalk s).delivered = s.delivered := rfl
@[simp] theorem startWalk_shown (s : State) : (startWalk s).shown = s.shown := rfl
@[simp] theorem startWalk_streamsOpen (s : State) : (startWalk s).streamsOpen = s.streamsOpen := rfl
@[simp] theorem startWalk_leftover (s : State) : (startWalk s).leftover = s.leftover := rfl
@[simp] theorem startWalk_answers (s : State) : (startWalk s).answers = s.answers := rfl
@[simp] theorem startWalk_answersAfter (s : State) : (startWalk s).answersAfter = s.answersAfter := rfl
@[simp] theorem startWalk_inputs (s : State) : (startWalk s).inputs = s.inputs := rfl
@[simp] theorem startWalk_hostData (s : State) : (startWalk s).hostData = s.hostData := rfl
@[simp] theorem startWalk_freeCount (s : State) : (startWalk s).freeCount = s.freeCount := rfl

/-! ### dropBit -/

@[simp] theorem dropBit_cfg (s : State) : (dropBit s).cfg = s.cfg := rfl
@[simp] theorem dropBit_nodes (s : State) : (dropBit s).nodes = s.nodes := rfl
@[simp] theorem dropBit_code (s : State) : (dropBit s).code = s.code := rfl
@[simp] theorem dropBit_acc (s : State) : (dropBit s).acc = s.acc := rfl
@[simp] theorem dropBit_nacc (s : State) : (dropBit s).nacc = s.nacc := rfl
@[simp] theorem dropBit_bq (s : State) : (dropBit s).bq = s.bq <<< 1 := rfl
@[simp] theorem dropBit_nbq (s : State) : (dropBit s).nbq = s.nbq - 1#4 := rfl
@[simp] theorem dropBit_cur (s : State) : (dropBit s).cur = s.cur := rfl
@[simp] theorem dropBit_huff (s : State) : (dropBit s).huff = s.huff := rfl
@[simp] theorem dropBit_phase (s : State) : (dropBit s).phase = s.phase := rfl
@[simp] theorem dropBit_op (s : State) : (dropBit s).op = s.op := rfl
@[simp] theorem dropBit_status (s : State) : (dropBit s).status = s.status := rfl
@[simp] theorem dropBit_errcode (s : State) : (dropBit s).errcode = s.errcode := rfl
@[simp] theorem dropBit_srclen (s : State) : (dropBit s).srclen = s.srclen := rfl
@[simp] theorem dropBit_srcpos (s : State) : (dropBit s).srcpos = s.srcpos := rfl
@[simp] theorem dropBit_dstlen (s : State) : (dropBit s).dstlen = s.dstlen := rfl
@[simp] theorem dropBit_buf (s : State) : (dropBit s).buf = s.buf := rfl
@[simp] theorem dropBit_src (s : State) : (dropBit s).src = s.src := rfl
@[simp] theorem dropBit_dst (s : State) : (dropBit s).dst = s.dst := rfl
@[simp] theorem dropBit_delivered (s : State) : (dropBit s).delivered = s.delivered := rfl
@[simp] theorem dropBit_shown (s : State) : (dropBit s).shown = s.shown := rfl
@[simp] theorem dropBit_streamsOpen (s : State) : (dropBit s).streamsOpen = s.streamsOpen := rfl
@[simp] theorem dropBit_leftover (s : State) : (dropBit s).leftover = s.leftover := rfl
@[simp] theorem dropBit_answers (s : State) : (dropBit s).answers = s.answers := rfl
@[simp] theorem dropBit_answersAfter (s : State) : (dropBit s).answersAfter = s.answersAfter := rfl
@[simp] theorem dropBit_inputs (s : State) : (dropBit s).inputs = s.inputs := rfl
@[simp] theorem dropBit_hostData (s : State) : (dropBit s).hostData = s.hostData := rfl
@[simp] theorem dropBit_freeCount (s : State) : (dropBit s).freeCount = s.freeCount := rfl

/-! ### backToRoot -/

@[simp] theorem backToRoot_cfg (s : State) : (backToRoot s).cfg = s.cfg := rfl
@[simp] theorem backToRoot_nodes (s : State) : (backToRoot s).nodes = s.nodes := rfl
@[simp] theorem backToRoot_code (s : State) : (backToRoot s).code = s.code := rfl
@[simp] theorem backToRoot_acc (s : State) : (backToRoot s).acc = s.acc := rfl
@[simp] theorem backToRoot_nacc (s : State) : (backToRoot s).nacc = s.nacc := rfl
@[simp] theorem backToRoot_bq (s : State) : (backToRoot s).bq = s.bq := rfl
@[simp] theorem backToRoot_nbq (s : State) : (backToRoot s).nbq = s.nbq := rfl
@[simp] theorem backToRoot_cur (s : State) : (backToRoot s).cur = s.nodes.root := rfl
@[simp] theorem backToRoot_huff (s : State) : (backToRoot s).huff = s.huff := rfl
@[simp] theorem backToRoot_phase (s : State) : (backToRoot s).phase = s.phase := rfl
@[simp] theorem backToRoot_op (s : State) : (backToRoot s).op = s.op := rfl
@[simp] theorem backToRoot_status (s : State) : (backToRoot s).status = s.status := rfl
@[simp] theorem backToRoot_errcode (s : State) : (backToRoot s).errcode = s.errcode := rfl
@[simp] theorem backToRoot_srclen (s : State) : (backToRoot s).srclen = s.srclen := rfl
@[simp] theorem backToRoot_srcpos (s : State) : (backToRoot s).srcpos = s.srcpos := rfl
@[simp] theorem backToRoot_dstlen (s : State) : (backToRoot s).dstlen = s.dstlen := rfl
@[simp] theorem backToRoot_buf (s : State) : (backToRoot s).buf = s.buf := rfl
@[simp] theorem backToRoot_src (s : State) : (backToRoot s).src = s.src := rfl
@[simp] theorem backToRoot_dst (s : State) : (backToRoot s).dst = s.dst := rfl
@[simp] theorem backToRoot_delivered (s : State) : (backToRoot s).delivered = s.delivered := rfl
@[simp] theorem backToRoot_shown (s : State) : (backToRoot s).shown = s.shown := rfl
@[simp] theorem backToRoot_streamsOpen (s : State) : (backToRoot s).streamsOpen = s.streamsOpen := rfl
@[simp] theorem backToRoot_leftover (s : State) : (backToRoot s).leftover = s.leftover := rfl
@[simp] theorem backToRoot_answers (s : State) : (backToRoot s).answers = s.answers := rfl
@[simp] theorem backToRoot_answersAfter (s : State) : (backToRoot s).answersAfter = s.answersAfter := rfl
@[simp] theorem backToRoot_inputs (s : State) : (backToRoot s).inputs = s.inputs := rfl
@[simp] theorem backToRoot_hostData (s : State) : (backToRoot s).hostData = s.hostData := rfl
@[simp] theorem backToRoot_freeCount (s : State) : (backToRoot s).freeCount = s.freeCount := rfl

/-! ### readChunk -/

@[simp] theorem readChunk_cfg (p : Nat) (s : State) : (readChunk p s).cfg = s.cfg := rfl
@[simp] theorem readChunk_nodes (p : Nat) (s : State) : (readChunk p s).nodes = s.nodes := rfl
@[simp] theorem readChunk_code (p : Nat) (s : State) : (readChunk p s).code = s.code := rfl
@[simp] theorem readChunk_acc (p : Nat) (s : State) : (readChunk p s).acc = s.acc := rfl
@[simp] theorem readChunk_nacc (p : Nat) (s : State) : (readChunk p s).nacc = s.nacc := rfl
@[simp] theorem readChunk_bq (p : Nat) (s : State) : (readChunk p s).bq = s.bq := rfl
@[simp] theorem readChunk_nbq (p : Nat) (s : State) : (readChunk p s).nbq = s.nbq := rfl
@[simp] theorem readChunk_cur (p : Nat) (s : State) : (readChunk p s).cur = s.cur := rfl
@[simp] theorem readChunk_huff (p : Nat) (s : State) : (readChunk p s).huff = s.huff := rfl
@[simp] theorem readChunk_phase (p : Nat) (s : State) : (readChunk p s).phase = s.phase := rfl
@[simp] theorem readChunk_op (p : Nat) (s : State) : (readChunk p s).op = s.op := rfl
@[simp] theorem readChunk_status (p : Nat) (s : State) : (readChunk p s).status = s.status := rfl
@[simp] theorem readChunk_errcode (p : Nat) (s : State) : (readChunk p s).errcode = s.errcode := rfl
@[simp] theorem readChunk_srclen (p : Nat) (s : State) : (readChunk p s).srclen = s.srclen := rfl
@[simp] theorem readChunk_srcpos (p : Nat) (s : State) : (readChunk p s).srcpos = narrowSize (p + s.cfg.chunk) := rfl
@[simp] theorem readChunk_dstlen (p : Nat) (s : State) : (readChunk p s).dstlen = s.dstlen := rfl
@[simp] theorem readChunk_buf (p : Nat) (s : State) : (readChunk p s).buf = memRead p s.cfg.chunk s := rfl
@[simp] theorem readChunk_src (p : Nat) (s : State) : (readChunk p s).src = s.src := rfl
@[simp] theorem readChunk_dst (p : Nat) (s : State) : (readChunk p s).dst = s.dst := rfl
@[simp] theorem readChunk_delivered (p : Nat) (s : State) : (readChunk p s).delivered = s.delivered := rfl
@[simp] theorem readChunk_shown (p : Nat) (s : State) : (readChunk p s).shown = s.shown := rfl
@[simp] theorem readChunk_streamsOpen (p : Nat) (s : State) : (readChunk p s).streamsOpen = s.streamsOpen := rfl
@[simp] theorem readChunk_leftover (p : Nat) (s : State) : (readChunk p s).leftover = s.leftover := rfl
@[simp] theorem readChunk_answers (p : Nat) (s : State) : (readChunk p s).answers = s.answers := rfl
@[simp] theorem readChunk_answersAfter (p : Nat) (s : State) : (readChunk p s).answersAfter = s.answersAfter := rfl
@[simp] theorem readChunk_inputs (p : Nat) (s : State) : (readChunk p s).inputs = s.inputs := rfl
@[simp] theorem readChunk_hostData (p : Nat) (s : State) : (readChunk p s).hostData = s.hostData := rfl
@[simp] theorem readChunk_freeCount (p : Nat) (s : State) : (readChunk p s).freeCount = s.freeCount := rfl

end Sys2Proof.Machine
end

