-- ==== Sys2Proof/Laws/Ops.lean ====
section
/-! SUPPORT. What each shared operation can do, said once: the course of an operation, the environment's answers,
reads and appends. -/

namespace Sys2Proof.Machine

/-! ### The course of an operation -/

@[simp] theorem go_andThen (s : State) (f : State → Flow) : (Flow.go s).andThen f = f s := rfl

@[simp] theorem raised_andThen (s : State) (f : State → Flow) : (Flow.raised s).andThen f = .raised s := rfl

@[simp] theorem go_endPhase (i : Instr) (s : State) : (Flow.go s).endPhase i = .next (setPc i s) := rfl

@[simp] theorem raised_endPhase (i : Instr) (s : State) : (Flow.raised s).endPhase i = .next s := rfl

@[simp] theorem go_toOutcome (s : State) : (Flow.go s).toOutcome = .next s := rfl

@[simp] theorem raised_toOutcome (s : State) : (Flow.raised s).toOutcome = .next s := rfl

theorem andThen_assoc (r : Flow) (f g : State → Flow) :
    (r.andThen f).andThen g = r.andThen fun s => (f s).andThen g := by
  cases r <;> rfl

/-- What a course can be: where it goes on `P` holds of its state, where it has taken an error `Q` does. -/
def Flow.Ends (P Q : State → Prop) (r : Flow) : Prop :=
  match r with
  | .go s => P s
  | .raised s => Q s

/-- The rule of composition: each part once, then the whole. -/
theorem Flow.Ends.andThen {P P' Q : State → Prop} {r : Flow} {f : State → Flow} (hr : r.Ends P Q)
    (hf : ∀ s, P s → (f s).Ends P' Q) : (r.andThen f).Ends P' Q := by
  cases r with
  | go s => exact hf s hr
  | raised s => exact hr

/-- How a phase operation ends: at its successor, or with the error it took. -/
theorem endPhase_cases {i : Instr} {r : Flow} {t : State} (h : r.endPhase i = .next t) :
    (∃ s, r = .go s ∧ t = setPc i s) ∨ r = .raised t := by
  cases r with
  | go s => exact .inl ⟨s, rfl, by simpa using h.symm⟩
  | raised s => exact .inr (by simpa using h)

/-! ### The environment -/

theorem nextAnswer_of_allTrue {s : State} (h : AllAnswersTrue s) : nextAnswer s = true := by
  unfold nextAnswer
  split
  · exact h.2
  · next b bs heq => exact h.1 b (by simp [heq])

theorem allTrue_popAnswer {s : State} (h : AllAnswersTrue s) : AllAnswersTrue (popAnswer s) :=
  ⟨fun b hb => h.1 b (List.mem_of_mem_tail hb), h.2⟩

/-! ### Reads -/

@[simp] theorem memRead_length (a n : Nat) (s : State) : (memRead a n s).length = n := by simp [memRead]

theorem memRead_getElem? (a n k : Nat) (s : State) (h : k < n) :
    (memRead a n s)[k]? =
      some (if a + k < s.srclen.toNat then (Memory.readByte s.src (a + k)).getD 0#8 else 0#8) := by
  simp [memRead, h]

/-- A read depends on the source and SRCLEN alone. -/
theorem memRead_congr {s t : State} (hs : t.src = s.src) (hl : t.srclen = s.srclen) (a n : Nat) :
    memRead a n t = memRead a n s := by
  simp [memRead, hs, hl]

theorem memRead_add (a m n : Nat) (s : State) : memRead a (m + n) s = memRead a m s ++ memRead (a + m) n s := by
  simp only [memRead, List.range_add, List.map_append, List.map_map]
  congr 1
  apply List.map_congr_left
  intro k _
  simp [Nat.add_assoc]

theorem memRead_ofBytes {s : State} {bs : List Byte} (hs : s.src = Memory.ofBytes bs)
    (hl : s.srclen.toNat = bs.length) : memRead 0 bs.length s = bs := by
  apply List.ext_getElem?
  intro k
  by_cases hk : k < bs.length
  · rw [memRead_getElem? _ _ _ _ hk, hs, readByte_ofBytes, hl]
    simp [hk]
  · have hk' : bs.length ≤ k := Nat.le_of_not_lt hk
    rw [List.getElem?_eq_none (by simpa using hk'), List.getElem?_eq_none hk']

/-! ### Appends -/

theorem memWrite_of_answer {s : State} (v : List Byte) (h : nextAnswer s = true) :
    memWrite v s = .go (appendBytes v (popAnswer s)) := by
  simp [memWrite, h]

theorem memWrite_of_no_answer {s : State} (v : List Byte) (h : nextAnswer s = false) :
    memWrite v s = .raised (takeError .ioFailure (popAnswer s)) := by
  simp [memWrite, raise, h]

/-- Everything an append can do. -/
theorem memWrite_cases (v : List Byte) (s : State) :
    (nextAnswer s = true ∧ memWrite v s = .go (appendBytes v (popAnswer s))) ∨
    (nextAnswer s = false ∧ memWrite v s = .raised (takeError .ioFailure (popAnswer s))) := by
  cases h : nextAnswer s
  · exact .inr ⟨rfl, memWrite_of_no_answer v h⟩
  · exact .inl ⟨rfl, memWrite_of_answer v h⟩

theorem allTrue_appendBytes {s : State} (h : AllAnswersTrue s) (v : List Byte) :
    AllAnswersTrue (appendBytes v (popAnswer s)) :=
  allTrue_popAnswer h

/-- Several appends where every answer is true: all bytes, in order, one answer each. -/
theorem memWrites_of_allTrue (vs : List (List Byte)) {s : State} (h : AllAnswersTrue s) :
    ∃ t, memWrites vs s = .go t ∧ t.dst = Memory.extend s.dst vs.flatten ∧ AllAnswersTrue t ∧
      t = { s with dst := t.dst, dstlen := t.dstlen, answers := s.answers.drop vs.length } := by
  induction vs generalizing s with
  | nil => exact ⟨s, rfl, by simp, h, by simp⟩
  | cons v vs ih =>
    obtain ⟨t, ht, hdst, hall, heq⟩ := ih (allTrue_appendBytes h v)
    refine ⟨t, ?_, ?_, hall, ?_⟩
    · rw [memWrites, memWrite_of_answer v (nextAnswer_of_allTrue h), go_andThen, ht]
    · rw [hdst, appendBytes_dst, popAnswer_dst, extend_extend, List.flatten_cons]
    · rw [heq]
      simp [appendBytes, popAnswer]

/-- The tree block has 769 fields (R86). -/
@[simp] theorem treeFields_length (n : NodeTable) : (treeFields n).length = 769 := by
  rw [treeFields, List.length_append, List.length_flatMap]
  simp only [List.length_cons, List.length_nil, List.map_const', List.length_range, List.sum_replicate_nat]

/-! ### Looks at the destination -/

/-- A free value between two ends lies between them. -/
theorem between_bounds {a b : Nat} (k : Nat) (h : a ≤ b) : a ≤ between a b k ∧ between a b k ≤ b := by
  have : k % (b - a + 1) < b - a + 1 := Nat.mod_lt k (Nat.succ_pos _)
  simp only [between, if_pos h]
  omega

/-- What has arrived: all of what had, and no more than the phase in progress appends (R41, R66). -/
theorem arrivedBytes_bounds (s : State) : min s.shown (afterPhase s).dst.length ≤ arrivedBytes s ∧
    arrivedBytes s ≤ (afterPhase s).dst.length :=
  between_bounds _ (Nat.min_le_right _ _)

theorem noteArrived_of_busy {s : State} (h : s.status.busy = true) :
    noteArrived s = { s with shown := arrivedBytes s } := by
  simp [noteArrived, h]

theorem noteArrived_of_rest {s : State} (h : s.status.busy = false) : noteArrived s = s := by
  simp [noteArrived, h]

/-- A look changes the model's own fields only. -/
theorem noteArrived_frame (s : State) : noteArrived s = { s with shown := (noteArrived s).shown } := by
  unfold noteArrived
  split <;> rfl

/-! ### Commands -/

theorem acceptCommand_of_busy (op : BitVec 2) {s : State} (h : s.status.busy = true) : acceptCommand op s = s := by
  simp [acceptCommand, h]

/-- One step, by the head of the schedule. -/
theorem step_of_event {s : State} {e : HostEvent} {rest : List (Option HostEvent)}
    (h : s.inputs = some e :: rest) : step s = hostEvent e { s with inputs := rest } := by
  simp [step, h]

theorem step_of_no_inputs {s : State} (h : s.inputs = []) : step s = runPhase s := by
  simp [step, h]

end Sys2Proof.Machine
end

