-- ==== Sys2Proof/Laws/PerInstr.lean ====
section
/-! SUPPORT. Statements for all instructions, one lemma a constructor. EncodeFits: the encoder's word fits the width
the table gives its format (spec/30_encoding.md R80). -/

namespace Sys2Proof.Laws.EncodeFits

/-- The word of an instruction has no bit above its format's width. -/
def Statement (i : Instr) : Prop := encode i < 2 ^ i.format.width

theorem archive : Statement .archive := by unfold Statement; decide
theorem unarchive : Statement .unarchive := by unfold Statement; decide
theorem idle : Statement .idle := by unfold Statement; decide
theorem init : Statement .init := by unfold Statement; decide
theorem wrMagic : Statement .wrMagic := by unfold Statement; decide
theorem decideMode : Statement .decideMode := by unfold Statement; decide
theorem wrFlag : Statement .wrFlag := by unfold Statement; decide
theorem freq : Statement .freq := by unfold Statement; decide
theorem build : Statement .build := by unfold Statement; decide
theorem serialize : Statement .serialize := by unfold Statement; decide
theorem codegen : Statement .codegen := by unfold Statement; decide
theorem pack : Statement .pack := by unfold Statement; decide
theorem copyEnc : Statement .copyEnc := by unfold Statement; decide
theorem rdMagic : Statement .rdMagic := by unfold Statement; decide
theorem rdFlag : Statement .rdFlag := by unfold Statement; decide
theorem deserialize : Statement .deserialize := by unfold Statement; decide
theorem unpack : Statement .unpack := by unfold Statement; decide
theorem copyDec : Statement .copyDec := by unfold Statement; decide
theorem finish : Statement .finish := by unfold Statement; decide
theorem done : Statement .done := by unfold Statement; decide
theorem error : Statement .error := by unfold Statement; decide
theorem nodeTerminator : Statement .nodeTerminator := by unfold Statement; decide
theorem hdrMagic (m : BitVec 32) : Statement (.hdrMagic m) := m.isLt

theorem hdrFlagHuff (rsv : BitVec 7) : Statement (.hdrFlagHuff rsv) := by
  have := rsv.isLt
  simp only [Statement, encode, Instr.format, Format.width]
  omega

theorem hdrFlagVerb (rsv : BitVec 7) : Statement (.hdrFlagVerb rsv) := by
  have := rsv.isLt
  simp only [Statement, encode, Instr.format, Format.width]
  omega

theorem nodeSymbol (sym : BitVec 8) : Statement (.nodeSymbol sym) := by
  have := sym.isLt
  simp only [Statement, encode, Instr.format, Format.width]
  omega

theorem nodeInternal (slot : BitVec 8) : Statement (.nodeInternal slot) := by
  have := slot.isLt
  simp only [Statement, encode, Instr.format, Format.width]
  omega

end Sys2Proof.Laws.EncodeFits
end

