-- ==== Sys2Proof/Tests/Slice0.lean ====
section
/-! SUPPORT. Tests: words written out from spec/30_encoding.md, single steps against spec/95_test_vectors.md, and a
witness for the hypotheses of each statement. -/

namespace Sys2Proof.Tests

open Sys2Proof.Machine

set_option maxRecDepth 100000

/-- The state an instruction answers (reset where it answers none). -/
def after (o : Host.Outcome State Fault Refusal) : State :=
  match o with
  | .next s => s
  | .fault _ => State.reset
  | .refused _ => State.reset

/-- The instruction answers a next state. -/
def isNext (o : Host.Outcome State Fault Refusal) : Bool :=
  match o with
  | .next _ => true
  | .fault _ => false
  | .refused _ => false

/-- A small state: a source of these bytes, SRCLEN set, the read position. -/
def withSource (bs : List Byte) (pos : Nat) : State :=
  { State.reset with
    src := Memory.ofBytes bs, srclen := BitVec.ofNat 64 bs.length, srcpos := BitVec.ofNat 64 pos, nodes := initialNodes }

/-- A table whose counts are INIT's but for these. -/
def withCounts (cs : List (Nat × Int)) : NodeTable :=
  { initialNodes with
    count := cs.foldl (fun v c => v.setIfInBounds c.1 (BitVec.ofInt 32 c.2)) initialNodes.count }

/-- The tree of vector V7 (spec/95_test_vectors.md): 256 = (0, 65). -/
def smallTree : NodeTable :=
  { withCounts [(0, -1), (65, -4), (256, 5)] with
    left := (Vector.replicate 512 noNode).setIfInBounds 256 0
    right := (Vector.replicate 512 noNode).setIfInBounds 256 65
    parent := ((Vector.replicate 512 noNode).setIfInBounds 0 256).setIfInBounds 65 256
    root := 256, nextFree := 257#10 }

/-- The codes of vector V9: A = 0, B = 10, C = 111, terminator = 110. -/
def workedCodes : Vector (List Bool) 256 :=
  tabulate 256 fun i =>
    if i = 65 then [false] else if i = 66 then [true, false] else if i = 67 then [true, true, true]
    else if i = 0 then [true, true, false] else []

/-- The child links of vector V5: 256 = (0, 67), 257 = (66, 256), 258 = (65, 257). -/
def workedTree : NodeTable :=
  { initialNodes with
    left := (((Vector.replicate 512 noNode).setIfInBounds 256 0).setIfInBounds 257 66).setIfInBounds 258 65
    right := (((Vector.replicate 512 noNode).setIfInBounds 256 67).setIfInBounds 257 256).setIfInBounds 258 257
    parent :=
      (((((Vector.replicate 512 noNode).setIfInBounds 0 256).setIfInBounds 67 256).setIfInBounds 66
        257).setIfInBounds 256 257).setIfInBounds 65 258 |>.setIfInBounds 257 258
    root := 258, nextFree := 259#10 }

/-! ### Words (R81, R82, R84, R85, R97) -/

theorem test_decode_cmdw : decode .cmdw 0b00000001 = .instr .archive ∧
    decode .cmdw 0b00000010 = .instr .unarchive ∧ decode .cmdw 0b00000000 = .rejected .illegalCommand ∧
    decode .cmdw 0b00000011 = .rejected .illegalCommand := by decide

theorem test_decode_phase_encode : decode .phase 0b00000 = .instr .idle ∧ decode .phase 0b00001 = .instr .init ∧
    decode .phase 0b00010 = .instr .wrMagic ∧ decode .phase 0b00011 = .instr .decideMode ∧
    decode .phase 0b00100 = .instr .wrFlag ∧ decode .phase 0b00101 = .instr .freq ∧
    decode .phase 0b00110 = .instr .build ∧ decode .phase 0b00111 = .instr .serialize ∧
    decode .phase 0b01000 = .instr .codegen ∧ decode .phase 0b01001 = .instr .pack ∧
    decode .phase 0b01010 = .instr .copyEnc := by decide

theorem test_decode_phase_decode : decode .phase 0b01011 = .instr .rdMagic ∧ decode .phase 0b01100 = .instr .rdFlag ∧
    decode .phase 0b01101 = .instr .deserialize ∧ decode .phase 0b01110 = .instr .unpack ∧
    decode .phase 0b01111 = .instr .copyDec ∧ decode .phase 0b10000 = .instr .finish ∧
    decode .phase 0b10001 = .instr .done ∧ decode .phase 0b10010 = .instr .error := by decide

theorem test_decode_phase_reserved :
    decode .phase 0b10011 = .rejected .reservedPhase ∧ decode .phase 0b11111 = .rejected .reservedPhase ∧
    decode .phase 0b100000 = .rejected .wordTooWide := by decide

/-- Bytes AA BB CC DD, byte 0 in bits 31:24; the flag bytes of V28. -/
theorem test_decode_hdr :
    decode .hdrMagic 0b10101010101110111100110011011101 = .instr (.hdrMagic 0xAABBCCDD#32) ∧
    magicWordBytes 0xAABBCCDD#32 = [0xAA#8, 0xBB#8, 0xCC#8, 0xDD#8] ∧
    decode .hdrFlag 0b00000001 = .instr (.hdrFlagHuff 0b0000000#7) ∧
    decode .hdrFlag 0b11111111 = .instr (.hdrFlagHuff 0b1111111#7) ∧
    decode .hdrFlag 0b00000010 = .instr (.hdrFlagVerb 0b0000001#7) := by decide

theorem test_decode_nodeid : decode .nodeid 0b000000000 = .instr .nodeTerminator ∧
    decode .nodeid 0b000000001 = .instr (.nodeSymbol 1#8) ∧ decode .nodeid 0b011111111 = .instr (.nodeSymbol 255#8) ∧
    decode .nodeid 0b100000000 = .instr (.nodeInternal 0#8) ∧
    decode .nodeid 0b111111111 = .instr (.nodeInternal 255#8) ∧
    decode .nodeid 0b1000000000 = .rejected .wordTooWide := by decide

/-- The one ill-formed term is refused by the check. -/
theorem test_wellFormed_refuses_symbol_zero :
    (Instr.nodeSymbol 0#8).wellFormed = false ∧ (Instr.nodeSymbol 1#8).wellFormed = true := by decide

/-! ### Index fields (V8b) and the parameters -/

theorem test_idx_two_bytes :
    idxBytes .two .little 67 = [0x43#8, 0x00#8] ∧ idxBytes .two .little 511 = [0xFF#8, 0x01#8] ∧
    idxBytes .two .little (-1) = [0xFF#8, 0xFF#8] ∧ idxBytes .four .little 258 = [0x02#8, 0x01#8, 0#8, 0#8] := by
  decide

theorem test_unidx_out_of_range :
    unIdx .two .little [0x00#8, 0x02#8] = 512 ∧ unIdx .two .little [0x00#8, 0x80#8] = -32768 ∧
    unIdx .two .little [0xFE#8, 0xFF#8] = -2 ∧ unIdx .two .big [0x01#8, 0x02#8] = 258 := by decide

/-! ### Commands and rest (V34) -/

theorem test_archive_accepted : (after (exec .archive State.reset)).phase = 1#5 ∧
    (after (exec .archive State.reset)).op = 1#2 ∧
    (after (exec .archive State.reset)).status.toByte = 0x01#8 := by decide

theorem test_unarchive_accepted : (after (exec .unarchive State.reset)).op = 2#2 := by decide

theorem test_resting_states : exec .idle State.reset = .next State.reset ∧ exec .done State.reset = .next State.reset ∧
    exec .error State.reset = .next State.reset := ⟨rfl, rfl, rfl⟩

/-! ### Encode -/

/-- V0. -/
theorem test_init : getCount (after (exec .init State.reset)).nodes.count 0 = 1#32 ∧
    getCount (after (exec .init State.reset)).nodes.count 65 = 0#32 ∧
    (after (exec .init State.reset)).nodes.nextFree = 256#10 := by decide

/-- V33: an open that fails. R57: nothing of an earlier destination is seen. -/
theorem test_init_open_fails :
    (after (exec .init { State.reset with answers := [false] })).errcode = 5#3 ∧
    (after (exec .init { State.reset with answers := [false] })).dstlen = 0#64 ∧
    visibleDst (after (exec .init
      { State.reset with answers := [false], dst := Memory.ofBytes [7#8], delivered := 1 })) = [] := by decide

/-- R183's example. -/
theorem test_wrMagic : Memory.bytes (after (exec .wrMagic State.reset)).dst = [0xAA#8, 0xBB#8, 0xCC#8, 0xDD#8] ∧
    (after (exec .wrMagic State.reset)).dstlen = 4#64 := by decide

/-- V26 at W = 2, both sides of the boundary. -/
theorem test_decide :
    (after (exec .decideMode { State.reset with srclen := 1024#64 })).huff = false ∧
    (after (exec .decideMode { State.reset with srclen := 1025#64 })).huff = true := by decide

theorem test_wrFlag : Memory.bytes (after (exec .wrFlag { State.reset with huff := true })).dst = [0x01#8] ∧
    (after (exec .wrFlag { State.reset with huff := true })).phase = 5#5 ∧
    (after (exec .wrFlag State.reset)).phase = 10#5 := by decide

/-- V2 with CHUNK = 8: the zero byte silences the rest. -/
theorem test_freq_zero_silences :
    (getCount (after (exec .freq (withSource [0x41#8, 0x00#8, 0x42#8] 0))).nodes.count 65 = 1#32) ∧
    (getCount (after (exec .freq (withSource [0x41#8, 0x00#8, 0x42#8] 0))).nodes.count 66 = 0#32) ∧
    (after (exec .freq (withSource [0x41#8, 0x00#8, 0x42#8] 0))).srcpos = 8#64 := by decide

/-- V5: three merges, ties to the lowest id. -/
theorem test_build_worked_example :
    getLink (after (exec .build { State.reset with nodes := withCounts [(65, 3), (66, 2), (67, 1)] })).nodes.right 257
      = 256 ∧
    (after (exec .build { State.reset with nodes := withCounts [(65, 3), (66, 2), (67, 1)] })).nodes.root = 258 := by
  decide +kernel

/-- V7c: nothing to merge. -/
theorem test_build_terminator_only :
    (after (exec .build { State.reset with nodes := initialNodes })).nodes.nextFree = 256#10 := by decide

/-- V8, the first field of the block. -/
theorem test_serialize_begins :
    (Memory.bytes (after (exec .serialize { State.reset with nodes := workedTree })).dst).take 6 =
      [0x00#8, 0x00#8, 0x43#8, 0x00#8, 0x01#8, 0x01#8] := by decide +kernel

/-- V9. -/
theorem test_codegen_worked_example :
    getCode (after (exec .codegen { State.reset with nodes := workedTree })).code 66#8 = [true, false] ∧
    getCode (after (exec .codegen { State.reset with nodes := workedTree })).code 0#8 = [true, true, false] := by
  decide +kernel

/-- V12: 15 F0, five zero bits left. -/
theorem test_pack_worked_example :
    Memory.bytes (after (exec .pack { withSource [65#8, 65#8, 65#8, 66#8, 66#8, 67#8] 0 with code := workedCodes })).dst
      = [0x15#8, 0xF0#8] ∧
    (after (exec .pack { withSource [65#8, 65#8, 65#8, 66#8, 66#8, 67#8] 0 with code := workedCodes })).nacc = 5#3 := by
  decide

/-- V29 at CHUNK = 8: last byte of the padded chunk zero, cut at the first zero. -/
theorem test_copyEnc_cuts : Memory.bytes (after (exec .copyEnc (withSource [0x41#8, 0x00#8, 0x42#8] 0))).dst = [0x41#8] := by
  decide

/-- V29, a full chunk with a nonzero last byte keeps its zeros. -/
theorem test_copyEnc_keeps :
    Memory.bytes (after (exec .copyEnc (withSource [1#8, 0#8, 3#8, 4#8, 5#8, 6#8, 7#8, 8#8] 0))).dst =
      [1#8, 0#8, 3#8, 4#8, 5#8, 6#8, 7#8, 8#8] := by decide

/-! ### Decode -/

/-- V30, V31. -/
theorem test_rdMagic_errors :
    (after (exec .rdMagic (withSource [0xAA#8, 0xBB#8, 0xCC#8, 0xDE#8, 0#8] 0))).errcode = 1#3 ∧
    (after (exec .rdMagic (withSource [0xAA#8, 0xBB#8, 0xCC#8, 0xDE#8, 0#8] 0))).srcpos = 4#64 ∧
    (after (exec .rdMagic (withSource [0xAA#8, 0xBB#8] 0))).srcpos = 0#64 := by decide

/-- V28, V32. -/
theorem test_rdFlag : (after (exec .rdFlag (withSource [0xAA#8, 0xBB#8, 0xCC#8, 0xDD#8, 0xFE#8] 4))).phase = 15#5 ∧
    (after (exec .rdFlag (withSource [0xAA#8, 0xBB#8, 0xCC#8, 0xDD#8] 4))).errcode = 2#3 := by decide

/-- V32: no tree block. -/
theorem test_deserialize_truncated :
    (after (exec .deserialize (withSource [0xAA#8, 0xBB#8, 0xCC#8, 0xDD#8, 1#8] 5))).errcode = 2#3 := by decide

/-- V20: 15 F0 with the worked example's tree. -/
theorem test_unpack_worked_example :
    Memory.bytes (after (exec .unpack { withSource [0x15#8, 0xF0#8] 0 with nodes := workedTree })).dst =
      [65#8, 65#8, 65#8, 66#8, 66#8, 67#8] ∧
    (after (exec .unpack { withSource [0x15#8, 0xF0#8] 0 with nodes := workedTree })).srcpos = 2#64 := by decide +kernel

/-- V22: the payload ends inside the walk; what was emitted stays. -/
theorem test_unpack_truncated :
    (after (exec .unpack { withSource [0x15#8] 0 with nodes := workedTree })).errcode = 2#3 ∧
    Memory.bytes (after (exec .unpack { withSource [0x15#8] 0 with nodes := workedTree })).dst =
      [65#8, 65#8, 65#8, 66#8, 66#8] := by decide

/-- V29b. -/
theorem test_copyDec :
    Memory.bytes (after (exec .copyDec (withSource [0xAA#8, 0xBB#8, 0xCC#8, 0xDD#8, 0#8, 0x41#8, 0#8, 0x42#8] 5))).dst =
      [0x41#8, 0#8, 0x42#8] := by decide

/-- R196, V33. -/
theorem test_finish : (after (exec .finish State.reset)).phase = 17#5 ∧
    (after (exec .finish { State.reset with answers := [false] })).errcode = 5#3 := by decide

/-! ### Selector rows -/

theorem test_hdrMagic : (after (exec (.hdrMagic 0xAABBCCDD#32) State.reset)).phase = 12#5 ∧
    (after (exec (.hdrMagic 0xAABBCCDE#32) State.reset)).errcode = 1#3 := by decide

theorem test_hdrFlag : (after (exec (.hdrFlagHuff 1#7) State.reset)).phase = 13#5 ∧
    (after (exec (.hdrFlagVerb 1#7) State.reset)).phase = 15#5 := by decide

theorem test_nodeTerminator : (after (exec .nodeTerminator State.reset)).phase = 16#5 := by decide

theorem test_nodeSymbol : Memory.bytes (after (exec (.nodeSymbol 65#8) State.reset)).dst = [65#8] := by decide

/-- The worked example's first bit: 0 leads from 258 to leaf 65. -/
theorem test_nodeInternal :
    (after (exec (.nodeInternal 2#8) { withSource [0x15#8, 0xF0#8] 0 with nodes := workedTree })).cur = 65 ∧
    (after (exec (.nodeInternal 2#8) (withSource [] 0))).errcode = 2#3 := by decide

/-! ### The step -/

/-- R198: an illegal command word is ignored. -/
theorem test_step_illegal_command :
    (after (step { State.reset with inputs := [some (.write .cmd 3#64)] })).phase = 0#5 := by decide

/-- Every table word placed at reset runs, one word per format. -/
theorem test_fetch_from_reset :
    (after (step (State.reset.withFetchWord 8 1))).phase = 1#5 ∧
    (after (step (State.reset.withFetchWord 8 3))).phase = 4#5 ∧
    (after (step (State.reset.withFetchWord 32 0xAABBCCDD))).phase = 12#5 ∧
    (after (step (State.reset.withFetchWord 16 0))).phase = 16#5 := by decide

/-- Every phase operation answers a next state from reset. -/
theorem test_every_phase_runs_from_reset :
    ∀ i ∈ [Instr.init, .wrMagic, .decideMode, .wrFlag, .freq, .build, .codegen, .pack, .copyEnc, .rdMagic, .rdFlag,
      .deserialize, .unpack, .copyDec, .finish], isNext (exec i State.reset) = true := by decide +kernel

/-- R82: a reserved PHASE code is no instruction. -/
theorem test_reserved_phase_refused :
    step { State.reset with phase := 19#5 } = .refused .reservedPhase := by rfl

/-! ### Witnesses: states and operands that meet the hypotheses of the statements -/

theorem witness_DecodeAndEncodeAgree : decode .nodeid 321 = .instr (.nodeInternal 65#8) ∧
    (Instr.nodeInternal 65#8).wellFormed = true ∧ encode (.nodeInternal 65#8) = 321 := by decide

theorem witness_StepRunsTheDecodedInstruction :
    ({ State.reset with inputs := [none] }.inputs = none :: [] ∧ State.reset.inputs = [] ∧
      decode .phase State.reset.phase.toNat = .instr .idle) ∧
    ({ State.reset with inputs := [some (.write .cmd 1#64)] }.inputs = some (.write .cmd 1#64) :: [] ∧
      decode .cmdw ((1#64).toNat % 256) = .instr .archive) ∧
    ({ State.reset with inputs := [some (.line .phase 5)] }.inputs = some (.line .phase 5) :: [] ∧
      decode .phase 5 = .instr .freq) := by decide

theorem witness_FetchedWordRunsNext : decodeTableWord 8 2 = some .unarchive ∧ decodeTableWord 8 18 = some .error ∧
    decodeTableWord 8 19 = some (.hdrFlagHuff 9#7) ∧ decodeTableWord 16 511 = some (.nodeInternal 255#8) := by decide

/-- A state in the middle of an operation. -/
def busyState : State :=
  { State.reset with phase := 3#5, op := 1#2, status := { busy := true, done := false, err := false, huff := false } }

theorem witness_CommandNotAcceptedChangesNothing :
    busyState.status.busy = true ∧ ((3#64).toNat % 256 ≠ 1 ∧ (3#64).toNat % 256 ≠ 2) := by decide

theorem witness_rest : State.reset.status.busy = false ∧ State.reset.phase = Instr.idle.phaseCode ∧
    State.reset.inputs = [] ∧ { State.reset with phase := 17#5 }.phase = Instr.done.phaseCode ∧
    { State.reset with phase := 18#5 }.phase = Instr.error.phaseCode := by decide

theorem witness_BusyRegistersKeepToTheRule : busyState.status.busy = true := rfl

theorem witness_EveryErrorComesFromItsOperations :
    State.reset.errcode = 0#3 ∧ (after (exec .rdMagic State.reset)).errcode = 1#3 ∧
    (after (exec .rdFlag State.reset)).errcode = 2#3 ∧ (after (exec .unpack State.reset)).errcode = 3#3 ∧
    (after (exec .build { State.reset with nodes := { withCounts [(65, 3)] with nextFree := 512#10 } })).errcode = 4#3 ∧
    (after (exec .finish { State.reset with answers := [false] })).errcode = 5#3 ∧
    (after (exec .build { State.reset with nodes := withCounts [(65, 2147483647)] })).errcode = 6#3 := by decide +kernel

theorem witness_EveryExitFlushesAndReleases :
    busyState.status.busy = true ∧ (after (exec .finish busyState)).status.busy = false ∧
    (after (exec .rdMagic busyState)).status.busy = false ∧
    (after (exec .init { busyState with answers := [false] })).status.busy = false := by decide

theorem witness_next_states : isNext (exec .wrMagic State.reset) = true ∧ isNext (exec .wrFlag State.reset) = true ∧
    isNext (exec .serialize State.reset) = true ∧ isNext (exec .build State.reset) = true ∧
    isNext (exec .codegen State.reset) = true := by decide +kernel

theorem witness_DestinationOnlyGrowsAtItsEnd :
    0 < ({ State.reset with dst := Memory.ofBytes [7#8] } : State).dst.length ∧
    Memory.wf (Memory.ofBytes [7#8]) = true ∧
    isNext (exec .wrMagic { State.reset with dst := Memory.ofBytes [7#8] }) = true ∧
    nextAnswer State.reset = true := by decide

theorem witness_answers : nextAnswer State.reset = true ∧ nextAnswer { State.reset with answers := [false] } = false ∧
    State.reset.dstlen.toNat + [1#8].length < 2 ^ 64 := by decide

theorem witness_AllAnswersTrue : AllAnswersTrue State.reset := ⟨by simp [State.reset], rfl⟩

theorem witness_FreqCountsTheBytesBeforeAZero :
    (withSource [65#8, 0#8, 66#8] 0).srcpos = 0#64 ∧ (withSource [65#8, 0#8, 66#8] 0).srclen.toNat ≤ 2 ^ 31 - 2 ∧
    ∀ i : Nat, i < 512 →
      getCount (withSource [65#8, 0#8, 66#8] 0).nodes.count i = if i = 0 then 1#32 else 0#32 := by
  refine ⟨by decide, by decide, fun i hi => ?_⟩
  simp only [withSource, initialNodes, getCount_set, getCount_replicate _ hi]
  by_cases h : i = 0 <;> simp [h, eq_comm]

theorem witness_FreqRaisesCountOverflow :
    let s := { withSource [65#8] 0 with nodes := withCounts [(65, 2147483647)] }
    s.srcpos = 0#64 ∧ 0 < s.srclen.toNat ∧ srcByte s 0 ≠ 0#8 ∧
    (getCount s.nodes.count (srcByte s 0).toNat).toInt = 2147483647 := by decide

theorem witness_SelectMinIsTheLeastActiveNode :
    (withCounts [(65, 3)]).nextFree.toNat ≤ 512 ∧ selectMin none (withCounts [(65, 3)]) = some 0 ∧
    selectMin (some 0) (withCounts [(65, 3)]) = some 65 ∧ selectMin (some 0) initialNodes = none := by decide

theorem witness_MergeMakesTheNextInternalNode :
    let n := withCounts [(65, 3), (66, 2147483647)]
    0 < n.nextFree.toNat ∧ 65 < n.nextFree.toNat ∧ 66 < n.nextFree.toNat ∧ n.nextFree.toNat < 512 ∧
    isActive (getCount n.count 0) = true ∧ isActive (getCount n.count 65) = true ∧
    isActive (getCount n.count 66) = true ∧
    (getCount n.count 0).toInt + (getCount n.count 65).toInt ≤ 2147483647 ∧
    2147483647 < (getCount n.count 65).toInt + (getCount n.count 66).toInt := by decide

theorem counts_of_internal_slots (c : Count) {i : Nat} (h1 : 256 ≤ i) (h2 : i < 512) :
    getCount (initialNodes.count.setIfInBounds 65 c) i = 0#32 := by
  have h65 : ¬ (65 = i) := by omega
  have h0 : ¬ (0 = i) := by omega
  simp [initialNodes, getCount_set, getCount_replicate _ h2, h65, h0]

theorem witness_BuildMergesUntilOneNodeIsActive :
    let n := withCounts [(65, 3)]
    n.nextFree = 256#10 ∧ (∀ i : Nat, 256 ≤ i → i < 512 → isActive (getCount n.count i) = false) ∧
    (activeBelow n 256).length = 2 ∧ leafWeight n ≤ 2147483647 := by
  refine ⟨by decide +kernel, fun i h1 h2 => ?_, by decide +kernel, by decide +kernel⟩
  rw [show (withCounts [(65, 3)]).count = initialNodes.count.setIfInBounds 65 (BitVec.ofInt 32 3) from rfl,
    counts_of_internal_slots _ h1 h2]
  decide +kernel

/-- The start of BUILD for the source of vector V7. -/
theorem witness_Counted : Counted (withCounts [(65, 4)]) where
  startLinks := rfl
  terminator := by decide +kernel
  leaves := by decide +kernel
  slots := fun i h1 h2 => by
    rw [show (withCounts [(65, 4)]).count = initialNodes.count.setIfInBounds 65 (BitVec.ofInt 32 4) from rfl,
      counts_of_internal_slots _ h1 h2]
  bounded := by decide +kernel

theorem witness_BuildMakesTheTreeOfTheInvariants : Counted (withCounts [(65, 4)]) ∧
    ∃ x : Nat, 1 ≤ x ∧ x < 256 ∧ isActive (getCount (withCounts [(65, 4)]).count x) = true :=
  ⟨witness_Counted, 65, by decide⟩

/-- Every slot used and every node active. -/
def fullTable : NodeTable := { initialNodes with count := Vector.replicate 512 1#32, nextFree := 512#10 }

theorem activeBelow_fullTable : activeBelow fullTable 512 = List.range 512 := by
  refine List.filter_eq_self.2 fun i hi => ?_
  simp only [fullTable, getCount_replicate _ (List.mem_range.1 hi)]
  decide

theorem witness_BuildEndsOrExceedsCapacityAtOnce :
    initialNodes.nextFree.toNat ≤ 512 ∧ (activeBelow initialNodes initialNodes.nextFree.toNat).length < 2 ∧
    fullTable.nextFree = 512#10 ∧ 2 ≤ (activeBelow fullTable 512).length :=
  ⟨by decide, by decide +kernel, rfl, by simp only [activeBelow_fullTable, List.length_range]; omega⟩

theorem witness_SingleSymbolGetsOneBitCodes :
    Counted (withCounts [(65, 4)]) ∧ activeBelow (withCounts [(65, 4)]) 256 = [0, 65] :=
  ⟨witness_Counted, by decide +kernel⟩

theorem witness_IndexFieldsEncodeAndDecode : fitsIdx .two (-1) = true ∧ fitsIdx .two 32767 = true ∧
    fitsIdx .two (-32768) = true ∧ [0xFF#8, 0x01#8].length = IdxWidth.two.bytes ∧ 1 < IdxWidth.two.bytes := by decide

theorem witness_SerializeAppendsTheTreeBlock :
    AllAnswersTrue State.reset ∧ State.reset.dstlen.toNat + 769 * State.reset.cfg.width.bytes < 2 ^ 64 :=
  ⟨witness_AllAnswersTrue, by decide⟩

theorem witness_DeserializeLoadsTheTreeBlock :
    State.reset.srclen.toNat < State.reset.srcpos.toNat + 769 * State.reset.cfg.width.bytes ∧
    { State.reset with srclen := 1538#64 }.srcpos.toNat + 769 * State.reset.cfg.width.bytes ≤
      { State.reset with srclen := 1538#64 }.srclen.toNat := by decide

theorem blank_links_fit : LinksFit .two NodeTable.blank.left := fun i h => by
  rw [show NodeTable.blank.left = Vector.replicate 512 (-1) from rfl, getLink_replicate _ h]
  decide

/-- The block of the blank table, between a header and a payload byte. -/
theorem witness_TreeSurvivesTheArchive : ∃ (s u : State) (before block tail : List Byte), AllAnswersTrue s ∧
    LinksFit s.cfg.width s.nodes.left ∧ LinksFit s.cfg.width s.nodes.right ∧ LinksFit s.cfg.width s.nodes.parent ∧
    fitsIdx s.cfg.width s.nodes.root = true ∧ u.cfg.width = s.cfg.width ∧ u.cfg.endian = s.cfg.endian ∧
    (∃ t, exec .serialize s = .next t ∧ Memory.bytes t.dst = Memory.bytes s.dst ++ block) ∧
    u.src = Memory.ofBytes (before ++ block ++ tail) ∧ u.srclen.toNat = (before ++ block ++ tail).length ∧
    u.srcpos.toNat = before.length := by
  obtain ⟨t, ht, hdst, -, -⟩ := memWrites_of_allTrue
    ((treeFields State.reset.nodes).map (idxBytes State.reset.cfg.width State.reset.cfg.endian)) witness_AllAnswersTrue
  refine ⟨State.reset,
    { State.reset with
      src := Memory.ofBytes ([1#8] ++ ((treeFields State.reset.nodes).map
        (idxBytes State.reset.cfg.width State.reset.cfg.endian)).flatten ++ [0#8])
      srclen := 1540#64, srcpos := 1#64 }, [1#8],
    ((treeFields State.reset.nodes).map (idxBytes State.reset.cfg.width State.reset.cfg.endian)).flatten, [0#8],
    witness_AllAnswersTrue, blank_links_fit, blank_links_fit, blank_links_fit, by decide, rfl, rfl,
    ⟨setPc .codegen t, ?_, ?_⟩, rfl, ?_, rfl⟩
  · exact congrArg (Flow.endPhase .codegen) ht
  · rw [setPc_dst, hdst, bytes_extend]
  · simp only [List.length_append, idxFields_length, treeFields_length]
    decide

theorem smallTree_parents (i : Nat) (h : i < 512) (hp : getLink smallTree.parent i ≠ noNode) : i = 0 ∨ i = 65 := by
  by_contra hne
  rw [not_or] at hne
  apply hp
  simp [smallTree, getLink_set, getLink_replicate _ h, Ne.symm hne.1, Ne.symm hne.2]

theorem smallTree_untouched (v : Vector Int 512) (i : Nat) (h1 : 257 ≤ i) (h2 : i < 512)
    (hv : v = smallTree.left ∨ v = smallTree.right ∨ v = smallTree.parent) : getLink v i = noNode := by
  have h256 : ¬ (256 = i) := by omega
  have h0 : ¬ (0 = i) := by omega
  have h65 : ¬ (65 = i) := by omega
  rcases hv with rfl | rfl | rfl <;>
    simp [smallTree, getLink_set, getLink_replicate _ h2, h256, h0, h65]

/-- The tree of vector V7 meets the invariants of R26. -/
theorem witness_BuiltTree : BuiltTree smallTree where
  created := by decide
  rootIsLast := by decide
  children := fun k h1 h2 => by
    have hk : k = 256 := by
      have : smallTree.nextFree.toNat = 257 := by decide
      omega
    subst hk
    exact ⟨0, 65, by decide⟩
  parents := fun i h hp => by
    rcases smallTree_parents i h hp with rfl | rfl
    · exact ⟨256, by decide⟩
    · exact ⟨256, by decide⟩
  rootHasNoParent := by decide
  othersHaveParents := fun i h1 h2 => by
    have : smallTree.nextFree.toNat = 257 := by decide
    omega
  untouched := fun i h1 h2 => by
    have h257 : 257 ≤ i := h1
    exact ⟨smallTree_untouched _ i h257 h2 (.inl rfl), smallTree_untouched _ i h257 h2 (.inr (.inl rfl)),
      smallTree_untouched _ i h257 h2 (.inr (.inr rfl))⟩

theorem witness_CodegenCompletesOnClimbingLinks : ∀ i : Nat, i < 512 → getLink smallTree.parent i ≠ -1 →
    ∃ p : Nat, getLink smallTree.parent i = p ∧ i < p ∧ 256 ≤ p ∧ p ≤ 510 := fun i h hp => by
  rcases smallTree_parents i h hp with rfl | rfl
  · exact ⟨256, by decide⟩
  · exact ⟨256, by decide⟩

theorem witness_CodesOfPresentLeavesArePrefixFree : BuiltTree smallTree ∧
    isNext (exec .codegen { State.reset with nodes := smallTree }) = true ∧
    getLink smallTree.parent (0#8).toNat ≠ -1 ∧ getLink smallTree.parent (65#8).toNat ≠ -1 :=
  ⟨witness_BuiltTree, by decide +kernel⟩

theorem witness_AppendBitFlushesAtEightBits :
    State.reset.nacc.toNat < 7 ∧ { State.reset with nacc := 7#3 }.nacc.toNat = 7 ∧
    nextAnswer { State.reset with nacc := 7#3 } = true ∧
    nextAnswer { State.reset with nacc := 7#3, answers := [false] } = false := by decide

theorem witness_UnpackTestsTheRootFirst : State.reset.nodes.root < 256 ∧
    511 < ({ State.reset with nodes := { NodeTable.blank with root := 512 } } : State).nodes.root := by decide

theorem witness_UnpackFollowsThePayloadBits :
    let s := { withSource [0x80#8] 0 with nodes := smallTree, phase := 14#5 }
    AllAnswersTrue s ∧ 256 ≤ s.nodes.root ∧ s.nodes.root ≤ 511 ∧ s.srcpos.toNat ≤ s.srclen.toNat ∧ s.phase = 14#5 :=
  ⟨⟨by simp [withSource, State.reset], rfl⟩, by decide⟩

theorem witness_InternalRowTakesOneBit :
    (State.reset.nbq = 0#4 ∧ State.reset.srclen.toNat ≤ State.reset.srcpos.toNat) ∧
    (let s := { withSource [] 0 with nodes := smallTree, nbq := 3#4, bq := 0x80#8 };
      s.nbq ≠ 0#4 ∧ true = s.bq.getLsbD 7 ∧ getLink s.nodes.right (256 + (0#8).toNat) = 65) ∧
    (let s := { withSource [0x15#8] 0 with nodes := smallTree };
      s.nbq = 0#4 ∧ s.srcpos.toNat < s.srclen.toNat ∧ false = (srcByte s s.srcpos.toNat).getLsbD 7 ∧
      getLink s.nodes.left (256 + (0#8).toNat) = 0 ∧ getLink s.nodes.left (256 + (1#8).toNat) < 0) := by decide

theorem witness_HeaderIsWritten : nextAnswer State.reset = true ∧ State.reset.dstlen.toNat + 4 < 2 ^ 64 ∧
    nextAnswer { State.reset with answers := [false] } = false := by decide

theorem witness_CopyEncIsExactWithoutZeroBytes :
    AllAnswersTrue (withSource [65#8, 66#8] 0) ∧ (withSource [65#8, 66#8] 0).srcpos = 0#64 ∧
    ∀ b ∈ srcBytes (withSource [65#8, 66#8] 0), b ≠ 0#8 :=
  ⟨⟨by simp [withSource, State.reset], rfl⟩, by decide⟩

theorem witness_CopyDecCopiesTheRest : AllAnswersTrue (withSource [65#8, 66#8] 1) ∧
    (withSource [65#8, 66#8] 1).srcpos.toNat ≤ (withSource [65#8, 66#8] 1).srclen.toNat :=
  ⟨⟨by simp [withSource, State.reset], rfl⟩, by decide⟩

theorem witness_ReadMagicMatchesByteForByte :
    (withSource [0xAA#8, 0xBB#8, 0xCC#8] 0).srclen.toNat < 4 ∧
    (let s := withSource [0xAA#8, 0xBB#8, 0xCC#8, 0xDD#8] 0;
      4 ≤ s.srclen.toNat ∧ srcByte s 0 = s.cfg.magic0 ∧ srcByte s 1 = s.cfg.magic1 ∧ srcByte s 2 = s.cfg.magic2 ∧
      srcByte s 3 = s.cfg.magic3) ∧
    (let s := withSource [0xAA#8, 0xBB#8, 0xCC#8, 0xDE#8] 0;
      4 ≤ s.srclen.toNat ∧ srcByte s 3 ≠ s.cfg.magic3) := by decide

theorem witness_ReadFlagLooksAtBitZero : (withSource [0xAA#8, 0xBB#8, 0xCC#8, 0xDD#8] 4).srclen.toNat < 5 ∧
    5 ≤ (withSource [0xAA#8, 0xBB#8, 0xCC#8, 0xDD#8, 1#8] 4).srclen.toNat := by decide

theorem witness_HeaderRowsSelect :
    0xAABBCCDD#32 = State.reset.cfg.magic0 ++ State.reset.cfg.magic1 ++ State.reset.cfg.magic2 ++ State.reset.cfg.magic3 ∧
    0xAABBCCDE#32 ≠ State.reset.cfg.magic0 ++ State.reset.cfg.magic1 ++ State.reset.cfg.magic2 ++ State.reset.cfg.magic3 :=
  by decide

theorem witness_HeaderReadsEndInTheirRows :
    let s := withSource [0xAA#8, 0xBB#8, 0xCC#8, 0xDD#8, 1#8] 0
    4 ≤ s.srclen.toNat ∧ 5 ≤ s.srclen.toNat ∧
    decode .hdrMagic ((srcByte s 0 ++ srcByte s 1 ++ srcByte s 2 ++ srcByte s 3).toNat) =
      .instr (.hdrMagic 0xAABBCCDD#32) ∧
    decode .hdrFlag (srcByte s 4).toNat = .instr (.hdrFlagHuff 0#7) := by decide

theorem getCode_reset (b : Byte) : getCode State.reset.code b = [] := by
  simp [getCode, State.reset, b.isLt]

/-- A state at rest with SRCLEN written: the invariant holds and the next step answers. -/
theorem witness_StepKeepsTheInvariant : Inv { State.reset with srclen := 5#64 } ∧
    isNext (step { State.reset with srclen := 5#64 }) = true where
  right := by decide
  left :=
    { phaseLegal := by decide
      busyIff := by decide
      doneIff := by decide
      errIff := by decide
      errcodeIff := by decide
      errcodeLegal := by decide
      opLegal := by decide
      opWhileBusy := by decide
      huffCopy := by decide
      srcWf := by decide
      dstWf := by decide
      leftoverWf := by decide
      dstlenCounts := by decide
      deliveredBound := by decide
      deliveredAtRest := by decide
      openIff := by decide
      nextFreeRange := by decide
      leftFits := blank_links_fit
      rightFits := blank_links_fit
      parentFits := blank_links_fit
      rootFits := by decide
      curFits := by decide
      codeBound := fun b => by simp [getCode_reset]
      nbqBound := by decide
      bufLength := by decide
      noLines := fun f w => by simp [State.reset] }

theorem witness_EveryCommandComesToRest :
    let s := after (exec .archive State.reset)
    s.phase = 1#5 ∧ s.op = 1#2 ∧ s.status.busy = true ∧ s.inputs = [] := by decide

theorem witness_UnarchiveOfAForeignFileWritesNothing : State.reset.status.busy = false ∧ AllAnswersTrue State.reset ∧
    [0x50#8, 0x4B#8].length < 2 ^ 64 ∧ [0x50#8, 0x4B#8].take 4 ≠
      [State.reset.cfg.magic0, State.reset.cfg.magic1, State.reset.cfg.magic2, State.reset.cfg.magic3] :=
  ⟨rfl, witness_AllAnswersTrue, by decide⟩

theorem witness_VerbatimRoundTrip : State.reset.status.busy = false ∧ AllAnswersTrue State.reset ∧
    [65#8].length ≤ 512 * State.reset.cfg.width.bytes ∧ ∀ b ∈ [65#8], b ≠ 0#8 :=
  ⟨rfl, witness_AllAnswersTrue, by decide⟩

theorem witness_ArchiveRoundTrip : State.reset.status.busy = false ∧ AllAnswersTrue State.reset ∧
    (List.replicate 1025 65#8).length ≤ 2 ^ 31 - 2 ∧ ∀ b ∈ List.replicate 1025 65#8, b ≠ 0#8 :=
  ⟨rfl, witness_AllAnswersTrue, by simp, fun b hb => by simp [List.eq_of_mem_replicate hb]⟩

theorem witness_ZeroOnlySourceCannotBeDecoded : State.reset.status.busy = false ∧ AllAnswersTrue State.reset ∧
    (List.replicate 1025 0#8).length < 2 ^ 64 ∧
    512 * State.reset.cfg.width.bytes < (List.replicate 1025 0#8).length ∧ ∀ b ∈ List.replicate 1025 0#8, b = 0#8 :=
  ⟨rfl, witness_AllAnswersTrue, by simp, by simp [State.reset, placeholderConfig, IdxWidth.bytes],
    fun _ hb => List.eq_of_mem_replicate hb⟩

end Sys2Proof.Tests
end

/-! SUPPORT. Proofs for the family of spec/10_state.md: the tree BUILD makes (O27), the access table (O16, O17), the
step, reads and reset (O3, O8, O11), the invariant (O55). What an operation with a loop can do is proved once, as a rule
over what its elementary updates keep; the frames and the invariant are instances of those rules. -/

namespace Sys2Proof.Machine

/-! ### Counts and active nodes (R21) -/

theorem isActive_iff (c : Count) : isActive c = true ↔ 0 < c.toInt := by simp [isActive]

theorem mem_activeBelow {n : NodeTable} {bound i : Nat} :
    i ∈ activeBelow n bound ↔ i < bound ∧ 0 < (getCount n.count i).toInt := by
  simp [activeBelow, isActive_iff]

theorem activeBelow_nodup (n : NodeTable) (bound : Nat) : (activeBelow n bound).Nodup :=
  List.nodup_range.filter _

theorem setMerged_toInt {c : Count} (h : 0 < c.toInt) : (setMerged c).toInt = -c.toInt := by
  have := BitVec.toInt_lt (x := c)
  rw [setMerged, BitVec.toInt_neg, Int.bmod_eq_of_le] <;> omega

theorem toInt_ofInt_of_le_cntMax {x : Int} (h0 : 0 ≤ x) (h1 : x ≤ cntMax) : (BitVec.ofInt 32 x).toInt = x := by
  rw [cntMax] at h1
  rw [BitVec.toInt_ofInt, Int.bmod_eq_of_le] <;> omega

/-! ### SelectMin -/

/-- A node SelectMin may take: a slot below `nextFree`, not the excluded one, active (R121). -/
def Selectable (excl : Option Nat) (n : NodeTable) (i : Nat) : Prop :=
  i < n.nextFree.toNat ∧ i < 512 ∧ excl ≠ some i ∧ 0 < (getCount n.count i).toInt

theorem mem_scanned_iff {n : NodeTable} {e : Count × Nat} :
    e ∈ (n.count.toList.take n.nextFree.toNat).zipIdx ↔
      e.2 < n.nextFree.toNat ∧ e.2 < 512 ∧ getCount n.count e.2 = e.1 := by
  rw [List.mem_zipIdx_iff_getElem?, List.getElem?_take, getCount]
  by_cases hf : e.2 < n.nextFree.toNat <;> by_cases hi : e.2 < 512 <;> simp [hf, hi]

/-- Everything one step of the scan can do: an entry it may take is the best now or leaves another best; any other entry
leaves the best as it was. -/
theorem betterOf_cases (excl : Option Nat) (best : Option (Nat × Count)) (e : Count × Nat) :
    ((isActive e.1 = true ∧ excl ≠ some e.2) ∧
      ∃ x, betterOf excl best e = some x ∧ (best = some x ∨ x = (e.2, e.1))) ∨
    (¬ (isActive e.1 = true ∧ excl ≠ some e.2) ∧ betterOf excl best e = best) := by
  by_cases htake : isActive e.1 = true ∧ excl ≠ some e.2
  · refine .inl ⟨htake, ?_⟩
    unfold betterOf
    rw [if_pos (by simpa using htake)]
    cases best with
    | none => exact ⟨_, rfl, .inr rfl⟩
    | some b =>
      dsimp only
      split
      · exact ⟨_, rfl, .inr rfl⟩
      · exact ⟨_, rfl, .inl rfl⟩
  · refine .inr ⟨htake, ?_⟩
    unfold betterOf
    rw [if_neg (by simpa using htake)]

theorem betterOf_eq_none_iff {excl : Option Nat} {best : Option (Nat × Count)} {e : Count × Nat} :
    betterOf excl best e = none ↔ best = none ∧ ¬ (isActive e.1 = true ∧ excl ≠ some e.2) := by
  rcases betterOf_cases excl best e with ⟨htake, x, hx, -⟩ | ⟨htake, hbest⟩
  · simp [hx, htake]
  · rw [hbest, and_iff_left htake]

theorem betterOf_eq_some {excl : Option Nat} {best : Option (Nat × Count)} {e : Count × Nat} {x : Nat × Count}
    (h : betterOf excl best e = some x) :
    best = some x ∨ (x = (e.2, e.1) ∧ isActive e.1 = true ∧ excl ≠ some e.2) := by
  rcases betterOf_cases excl best e with ⟨htake, y, hy, hold⟩ | ⟨-, hbest⟩
  · obtain rfl := Option.some.inj (hy.symm.trans h)
    exact hold.imp_right fun hnew => ⟨hnew, htake⟩
  · exact .inl (hbest ▸ h)

theorem foldl_betterOf_eq_none_iff {excl : Option Nat} (l : List (Count × Nat)) (best : Option (Nat × Count)) :
    l.foldl (betterOf excl) best = none ↔ best = none ∧ ∀ e ∈ l, ¬ (isActive e.1 = true ∧ excl ≠ some e.2) := by
  induction l generalizing best with
  | nil => simp
  | cons e l ih => rw [List.foldl_cons, ih, betterOf_eq_none_iff, List.forall_mem_cons, and_assoc]

theorem foldl_betterOf_eq_some {excl : Option Nat} {l : List (Count × Nat)} {best : Option (Nat × Count)}
    {x : Nat × Count} (h : l.foldl (betterOf excl) best = some x) :
    best = some x ∨ ∃ e ∈ l, x = (e.2, e.1) ∧ isActive e.1 = true ∧ excl ≠ some e.2 := by
  induction l generalizing best with
  | nil => exact .inl h
  | cons e l ih =>
    rcases ih h with hbest | ⟨e', he', hx⟩
    · rcases betterOf_eq_some hbest with hb | hx
      · exact .inl hb
      · exact .inr ⟨e, List.mem_cons_self, hx⟩
    · exact .inr ⟨e', List.mem_cons_of_mem _ he', hx⟩

/-- SelectMin answers a node it may take (R121). -/
theorem selectable_of_selectMin {excl : Option Nat} {n : NodeTable} {a : Nat} (h : selectMin excl n = some a) :
    Selectable excl n a := by
  obtain ⟨x, hx, rfl⟩ := Option.map_eq_some_iff.1 h
  rcases foldl_betterOf_eq_some hx with hnone | ⟨e, he, rfl, hact, hexcl⟩
  · cases hnone
  · obtain ⟨hf, hi, hc⟩ := mem_scanned_iff.1 he
    exact ⟨hf, hi, hexcl, by rwa [hc, ← isActive_iff]⟩

/-- SelectMin answers none only where there is no node it may take (R121). -/
theorem not_selectable_of_selectMin {excl : Option Nat} {n : NodeTable} (h : selectMin excl n = none) (i : Nat) :
    ¬ Selectable excl n i := fun ⟨hf, hi, hexcl, hc⟩ =>
  ((foldl_betterOf_eq_none_iff _ _).1 (Option.map_eq_none_iff.1 h)).2 (getCount n.count i, i)
    (mem_scanned_iff.2 ⟨hf, hi, rfl⟩) ⟨(isActive_iff _).2 hc, hexcl⟩

/-- The pair of BUILD is two different active nodes below `nextFree`. -/
structure ActivePair (n : NodeTable) (a b : Nat) : Prop where
  ne : a ≠ b
  left_lt : a < n.nextFree.toNat ∧ a < 512
  right_lt : b < n.nextFree.toNat ∧ b < 512
  left_active : 0 < (getCount n.count a).toInt
  right_active : 0 < (getCount n.count b).toInt

theorem activePair_of_selectPair {n : NodeTable} {a b : Nat} (h : selectPair n = some (a, b)) : ActivePair n a b := by
  unfold selectPair at h
  split at h
  · cases h
  next a' ha =>
    split at h
    · cases h
    next b' hb =>
      cases h
      obtain ⟨haf, ha512, -, hac⟩ := selectable_of_selectMin ha
      obtain ⟨hbf, hb512, hne, hbc⟩ := selectable_of_selectMin hb
      exact ⟨fun hab => hne (congrArg some hab), ⟨haf, ha512⟩, ⟨hbf, hb512⟩, hac, hbc⟩

/-- Where BUILD finds no pair at most one node is active. -/
theorem active_unique_of_selectPair {n : NodeTable} (h : selectPair n = none) {i j : Nat}
    (hi : Selectable none n i) (hj : Selectable none n j) : i = j := by
  unfold selectPair at h
  split at h
  next ha => exact absurd hi (not_selectable_of_selectMin ha i)
  next a ha =>
    split at h
    next hb =>
      have only : ∀ k, Selectable none n k → a = k := fun k ⟨hf, hk, _, hc⟩ => by
        by_contra hne
        exact not_selectable_of_selectMin hb k ⟨hf, hk, fun heq => hne (Option.some.inj heq), hc⟩
      rw [← only i hi, ← only j hj]
    · cases h

end Sys2Proof.Machine

namespace Sys2Proof.Machine

/-! ### Merge -/

/-- What a merge of the active nodes `a` and `b` into slot `nextFree` leaves (R122). -/
structure Merged (n : NodeTable) (a b : Nat) (m : NodeTable) : Prop where
  sum_le : (getCount n.count a).toInt + (getCount n.count b).toInt ≤ cntMax
  nextFree : m.nextFree.toNat = n.nextFree.toNat + 1
  root : m.root = n.nextFree.toNat
  countNew : (getCount m.count n.nextFree.toNat).toInt = (getCount n.count a).toInt + (getCount n.count b).toInt
  countLeft : (getCount m.count a).toInt = -(getCount n.count a).toInt
  countRight : (getCount m.count b).toInt = -(getCount n.count b).toInt
  countOther : ∀ i, i ≠ n.nextFree.toNat → i ≠ a → i ≠ b → getCount m.count i = getCount n.count i
  leftNew : getLink m.left n.nextFree.toNat = a
  rightNew : getLink m.right n.nextFree.toNat = b
  leftOther : ∀ i, i ≠ n.nextFree.toNat → getLink m.left i = getLink n.left i
  rightOther : ∀ i, i ≠ n.nextFree.toNat → getLink m.right i = getLink n.right i
  parentLeft : getLink m.parent a = n.nextFree.toNat
  parentRight : getLink m.parent b = n.nextFree.toNat
  parentOther : ∀ i, i ≠ a → i ≠ b → getLink m.parent i = getLink n.parent i

theorem merge_eq_none_iff {n : NodeTable} {a b : Nat} :
    merge a b n = none ↔ cntMax < (getCount n.count a).toInt + (getCount n.count b).toInt := by
  simp [merge]

theorem merged_of_merge {n m : NodeTable} {a b : Nat} (hp : ActivePair n a b) (hf : n.nextFree.toNat < 512)
    (h : merge a b n = some m) : Merged n a b m := by
  obtain ⟨hne, ⟨haf, ha⟩, ⟨hbf, hb⟩, hca, hcb⟩ := hp
  have hsum : (getCount n.count a).toInt + (getCount n.count b).toInt ≤ cntMax :=
    not_lt.1 fun hlt => by simp [merge_eq_none_iff.2 hlt] at h
  have hnext : (n.nextFree + 1#10).toNat = n.nextFree.toNat + 1 := by
    rw [BitVec.toNat_add, BitVec.toNat_ofNat]
    omega
  rw [merge, if_neg (not_lt.2 hsum)] at h
  obtain rfl := Option.some.inj h
  refine ⟨hsum, hnext, rfl, ?_, ?_, ?_, ?_, ?_, ?_, ?_, ?_, ?_, ?_, ?_⟩
  · simp [getCount_set, hbf.ne, haf.ne, hf, toInt_ofInt_of_le_cntMax (by omega) hsum]
  · simp [getCount_set, hne.symm, ha, setMerged_toInt hca]
  · simp [getCount_set, hb, setMerged_toInt hcb]
  · intro i hif hia hib
    simp [getCount_set, hif.symm, hia.symm, hib.symm]
  · simp [getLink_set, hf]
  · simp [getLink_set, hf]
  · intro i hif
    simp [getLink_set, hif.symm]
  · intro i hif
    simp [getLink_set, hif.symm]
  · simp [getLink_set, hne.symm, ha]
  · simp [getLink_set, hb]
  · intro i hia hib
    simp [getLink_set, hia.symm, hib.symm]

/-! ### The loop of BUILD -/

/-- How the loop of BUILD ends: with no pair left, with all slots used, or at a sum past CNT_MAX (R120, R124). -/
def BuildEnds (free : Nat) (r : NodeTable × Option ErrCode) : Prop :=
  (r.2 = none ∧ selectPair r.1 = none) ∨
  (r.2 = some .capacityExceeded ∧ free = 0 ∧ ∃ a b, selectPair r.1 = some (a, b)) ∨
  (r.2 = some .countOverflow ∧ ∃ a b, selectPair r.1 = some (a, b) ∧ merge a b r.1 = none)

/-- The induction over the merges: what each merge keeps, while the free slots run down, holds at the end. -/
theorem buildLoop_ends {I : Nat → NodeTable → Prop}
    (hmerge : ∀ free n a b m, I (free + 1) n → selectPair n = some (a, b) → merge a b n = some m → I free m)
    (free : Nat) {n : NodeTable} (hn : I free n) :
    ∃ left, I left (buildLoop free n).1 ∧ BuildEnds left (buildLoop free n) := by
  induction free generalizing n with
  | zero =>
    refine ⟨0, ?_⟩
    unfold buildLoop
    cases hsel : selectPair n with
    | none => exact ⟨hn, .inl ⟨rfl, hsel⟩⟩
    | some p => exact ⟨hn, .inr (.inl ⟨rfl, rfl, p.1, p.2, hsel⟩)⟩
  | succ free ih =>
    unfold buildLoop
    cases hsel : selectPair n with
    | none => exact ⟨free + 1, hn, .inl ⟨rfl, hsel⟩⟩
    | some p =>
      obtain ⟨a, b⟩ := p
      cases hm : merge a b n with
      | none => simpa [hm] using ⟨free + 1, hn, .inr (.inr ⟨rfl, a, b, hsel, hm⟩)⟩
      | some m => simpa [hm] using ih (hmerge free n a b m hn hsel hm)

/-! ### The active nodes over a merge -/

/-- A merge takes two nodes from the active ones and puts one in, with the sum of their weights (R122, R123). -/
theorem activeBelow_of_merged {n m : NodeTable} {a b : Nat} (hp : ActivePair n a b) (h : Merged n a b m)
    (hf : n.nextFree.toNat < 512) (hnew : getCount n.count n.nextFree.toNat = 0#32) :
    ∃ rest : List Nat, (activeBelow n 512).Perm (a :: b :: rest) ∧
      (activeBelow m 512).Perm (n.nextFree.toNat :: rest) ∧
      ∀ i ∈ rest, getCount m.count i = getCount n.count i := by
  obtain ⟨hne, ⟨haf, ha⟩, ⟨hbf, hb⟩, hca, hcb⟩ := hp
  have hmem : ∀ i, i ∈ ((activeBelow n 512).erase a).erase b ↔
      (i < 512 ∧ 0 < (getCount n.count i).toInt) ∧ i ≠ a ∧ i ≠ b := fun i => by
    rw [((activeBelow_nodup n 512).erase a).mem_erase_iff, (activeBelow_nodup n 512).mem_erase_iff, mem_activeBelow]
    tauto
  have hfnot : ∀ i ∈ ((activeBelow n 512).erase a).erase b, i ≠ n.nextFree.toNat := by
    rintro i hi rfl
    have := ((hmem _).1 hi).1.2
    rw [hnew] at this
    exact absurd this (by decide)
  refine ⟨((activeBelow n 512).erase a).erase b, ?_, ?_, fun i hi => ?_⟩
  · have hb' : b ∈ (activeBelow n 512).erase a :=
      (activeBelow_nodup n 512).mem_erase_iff.2 ⟨hne.symm, mem_activeBelow.2 ⟨hb, hcb⟩⟩
    exact (List.perm_cons_erase (mem_activeBelow.2 ⟨ha, hca⟩)).trans (.cons a (List.perm_cons_erase hb'))
  · refine (List.perm_ext_iff_of_nodup (activeBelow_nodup m 512) (List.nodup_cons.2
      ⟨fun hi => hfnot _ hi rfl, ((activeBelow_nodup n 512).erase a).erase b⟩)).2 fun i => ?_
    rw [mem_activeBelow, List.mem_cons, hmem]
    by_cases hif : i = n.nextFree.toNat
    · subst hif
      have := h.countNew
      simp only [true_or, iff_true]
      omega
    · by_cases hia : i = a
      · have := h.countLeft
        subst hia
        simp [hif]
        omega
      · by_cases hib : i = b
        · have := h.countRight
          subst hib
          simp [hif]
          omega
        · simp [h.countOther i hif hia hib, hif, hia, hib]
  · obtain ⟨-, hia, hib⟩ := (hmem i).1 hi
    exact h.countOther i (hfnot i hi) hia hib

end Sys2Proof.Machine

namespace Sys2Proof.Machine

/-! ### The tree under construction -/

/-- The node `k` BUILD has made: two children of smaller ids, merged, that point back to it and carry its weight
(R26 (c), (d)). -/
def MadeNode (n : NodeTable) (k : Nat) : Prop :=
  ∃ a b : Nat, getLink n.left k = a ∧ getLink n.right k = b ∧ a ≠ b ∧ a < k ∧ b < k ∧
    getLink n.parent a = k ∧ getLink n.parent b = k ∧
    (getCount n.count a).toInt < 0 ∧ (getCount n.count b).toInt < 0 ∧
    -(getCount n.count a).toInt - (getCount n.count b).toInt = |(getCount n.count k).toInt|

/-- What the loop of BUILD keeps from the table `o` that INIT and FREQ left (R26, in the middle of the merges). -/
structure Growing (o n : NodeTable) : Prop where
  range : 256 ≤ n.nextFree.toNat ∧ n.nextFree.toNat ≤ 512
  activeCount : (activeBelow n 512).length + n.nextFree.toNat = (activeBelow o 256).length + 256
  weight : ((activeBelow n 512).map fun i => (getCount n.count i).toInt).sum = leafWeight o
  leaves : ∀ i : Nat, i < 256 → |(getCount n.count i).toInt| = (getCount o.count i).toInt
  unused : ∀ i : Nat, n.nextFree.toNat ≤ i → i < 512 → getCount n.count i = 0#32 ∧
    getLink n.left i = noNode ∧ getLink n.right i = noNode ∧ getLink n.parent i = noNode
  made : ∀ k : Nat, 256 ≤ k → k < n.nextFree.toNat → MadeNode n k
  parents : ∀ i : Nat, i < 512 → getLink n.parent i ≠ noNode →
    ∃ p : Nat, getLink n.parent i = p ∧ i < p ∧ 256 ≤ p ∧ p < n.nextFree.toNat ∧
      (getLink n.left p = i ∨ getLink n.right p = i)
  merged : ∀ i : Nat, i < 512 → ((getCount n.count i).toInt < 0 ↔ getLink n.parent i ≠ noNode)
  lastActive : 256 < n.nextFree.toNat → 0 < (getCount n.count (n.nextFree.toNat - 1)).toInt
  rootIsLast : 256 < n.nextFree.toNat → n.root = (n.nextFree.toNat : Int) - 1

theorem activeBelow_all_of_counted {n : NodeTable} (h : Counted n) : activeBelow n 512 = activeBelow n 256 := by
  have hslots : (List.range' 256 256).filter (fun i => isActive (getCount n.count i)) = [] := by
    refine List.filter_eq_nil_iff.2 fun i hi => ?_
    rw [List.mem_range'_1] at hi
    rw [h.slots i hi.1 (by omega)]
    decide
  simp only [activeBelow]
  rw [show 512 = 256 + 256 from rfl, List.range_add, ← List.range'_eq_map_range, List.filter_append, hslots,
    List.append_nil]

theorem growing_of_counted {n : NodeTable} (h : Counted n) : Growing n n := by
  have hfree : n.nextFree = 256#10 := by rw [h.startLinks]; rfl
  have hf : n.nextFree.toNat = 256 := by rw [hfree]; rfl
  have links : ∀ i : Nat, i < 512 →
      getLink n.left i = noNode ∧ getLink n.right i = noNode ∧ getLink n.parent i = noNode := fun i hi => by
    rw [h.startLinks]
    exact ⟨getLink_replicate _ hi, getLink_replicate _ hi, getLink_replicate _ hi⟩
  have notNegative : ∀ i : Nat, i < 512 → 0 ≤ (getCount n.count i).toInt := fun i hi => by
    by_cases hleaf : i < 256
    · exact h.leaves i hleaf
    · rw [h.slots i (by omega) hi]
      decide
  constructor
  case range => omega
  case activeCount => rw [activeBelow_all_of_counted h, hf]
  case weight => rw [activeBelow_all_of_counted h, leafWeight]
  case leaves => exact fun i hi => abs_of_nonneg (h.leaves i hi)
  case unused => exact fun i h1 h2 => ⟨h.slots i (by omega) h2, links i h2⟩
  case made => intro k h1 h2; omega
  case parents => exact fun i hi hp => absurd (links i hi).2.2 hp
  case merged => exact fun i hi => iff_of_false (by have := notNegative i hi; omega) (by simp [(links i hi).2.2])
  case lastActive => omega
  case rootIsLast => omega

theorem madeNode_of_merged {n m : NodeTable} {a b k : Nat} (hp : ActivePair n a b) (h : Merged n a b m)
    (hk : k < n.nextFree.toNat) (hmade : MadeNode n k) : MadeNode m k := by
  obtain ⟨c, d, hl, hr, hne, hck, hdk, hpc, hpd, hc, hd, hsum⟩ := hmade
  obtain ⟨-, ⟨haf, -⟩, ⟨hbf, -⟩, hca, hcb⟩ := hp
  -- A merged node is none of the pair, which is active, so its row stays.
  have kept : ∀ i, (getCount n.count i).toInt < 0 → i < k →
      getCount m.count i = getCount n.count i ∧ getLink m.parent i = getLink n.parent i := fun i hi hik => by
    have hia : i ≠ a := by rintro rfl; omega
    have hib : i ≠ b := by rintro rfl; omega
    exact ⟨h.countOther i (by omega) hia hib, h.parentOther i hia hib⟩
  have magnitude : |(getCount m.count k).toInt| = |(getCount n.count k).toInt| := by
    by_cases hka : k = a
    · rw [hka, h.countLeft, abs_neg]
    · by_cases hkb : k = b
      · rw [hkb, h.countRight, abs_neg]
      · rw [h.countOther k hk.ne hka hkb]
  obtain ⟨hcc, hcp⟩ := kept c hc hck
  obtain ⟨hdc, hdp⟩ := kept d hd hdk
  exact ⟨c, d, by rw [h.leftOther k hk.ne, hl], by rw [h.rightOther k hk.ne, hr], hne, hck, hdk, by rw [hcp, hpc],
    by rw [hdp, hpd], by rwa [hcc], by rwa [hdc], by rw [hcc, hdc, magnitude, hsum]⟩

theorem madeNode_of_merge {n m : NodeTable} {a b : Nat} (hp : ActivePair n a b) (h : Merged n a b m) :
    MadeNode m n.nextFree.toNat := by
  obtain ⟨hne, ⟨haf, -⟩, ⟨hbf, -⟩, hca, hcb⟩ := hp
  refine ⟨a, b, h.leftNew, h.rightNew, hne, haf, hbf, h.parentLeft, h.parentRight, ?_, ?_, ?_⟩
  · rw [h.countLeft]; omega
  · rw [h.countRight]; omega
  · rw [h.countLeft, h.countRight, h.countNew, abs_of_pos (by omega)]; omega

theorem growing_of_merged {o n m : NodeTable} {a b : Nat} (hg : Growing o n) (hp : ActivePair n a b)
    (hf : n.nextFree.toNat < 512) (h : Merged n a b m) : Growing o m := by
  obtain ⟨hnew, -, -, hnewParent⟩ := hg.unused n.nextFree.toNat le_rfl hf
  obtain ⟨rest, hn, hm, hrest⟩ := activeBelow_of_merged hp h hf hnew
  obtain ⟨hne, ⟨haf, ha⟩, ⟨hbf, hb⟩, hca, hcb⟩ := id hp
  have hrange := hg.range
  have hnext := h.nextFree
  constructor
  case range => omega
  case activeCount =>
    have := hg.activeCount
    rw [hn.length_eq] at this
    rw [hm.length_eq, hnext]
    simp only [List.length_cons] at this ⊢
    omega
  case weight =>
    have hkept : (rest.map fun i => (getCount m.count i).toInt) = rest.map fun i => (getCount n.count i).toInt :=
      List.map_congr_left fun i hi => by rw [hrest i hi]
    rw [(hm.map _).sum_eq, ← hg.weight, (hn.map _).sum_eq, List.map_cons, List.map_cons, List.map_cons, hkept,
      List.sum_cons, List.sum_cons, List.sum_cons, h.countNew, add_assoc]
  case leaves =>
    intro i hi
    rw [← hg.leaves i hi]
    by_cases hia : i = a
    · rw [hia, h.countLeft, abs_neg]
    · by_cases hib : i = b
      · rw [hib, h.countRight, abs_neg]
      · rw [h.countOther i (by omega) hia hib]
  case unused =>
    intro i h1 h2
    obtain ⟨hc, hl, hr, hpar⟩ := hg.unused i (by omega) h2
    rw [h.countOther i (by omega) (by omega) (by omega), h.leftOther i (by omega), h.rightOther i (by omega),
      h.parentOther i (by omega) (by omega)]
    exact ⟨hc, hl, hr, hpar⟩
  case made =>
    intro k h1 h2
    by_cases hk : k = n.nextFree.toNat
    · exact hk ▸ madeNode_of_merge hp h
    · exact madeNode_of_merged hp h (by omega) (hg.made k h1 (by omega))
  case parents =>
    intro i hi hpar
    by_cases hia : i = a
    · exact ⟨_, hia ▸ h.parentLeft, by omega, by omega, by omega, .inl (by rw [h.leftNew, hia])⟩
    · by_cases hib : i = b
      · exact ⟨_, hib ▸ h.parentRight, by omega, by omega, by omega, .inr (by rw [h.rightNew, hib])⟩
      · rw [h.parentOther i hia hib] at hpar ⊢
        obtain ⟨p, hip, hlt, h256, hpf, hchild⟩ := hg.parents i hi hpar
        rw [← h.leftOther p (by omega), ← h.rightOther p (by omega)] at hchild
        exact ⟨p, hip, hlt, h256, by omega, hchild⟩
  case merged =>
    intro i hi
    by_cases hia : i = a
    · rw [hia, h.countLeft, h.parentLeft, noNode]
      omega
    · by_cases hib : i = b
      · rw [hib, h.countRight, h.parentRight, noNode]
        omega
      · rw [h.parentOther i hia hib]
        by_cases hif : i = n.nextFree.toNat
        · rw [hif, h.countNew, hnewParent]
          exact iff_of_false (by omega) (by simp)
        · rw [h.countOther i hif hia hib]
          exact hg.merged i hi
  case lastActive =>
    intro _
    rw [hnext, Nat.add_sub_cancel, h.countNew]
    omega
  case rootIsLast =>
    intro _
    rw [hnext, h.root]
    omega

/-! ### The end of the loop -/

theorem pair_weight_le {n : NodeTable} {a b : Nat} (hp : ActivePair n a b) :
    (getCount n.count a).toInt + (getCount n.count b).toInt ≤
      ((activeBelow n 512).map fun i => (getCount n.count i).toInt).sum := by
  have hb : b ∈ (activeBelow n 512).erase a :=
    (activeBelow_nodup n 512).mem_erase_iff.2 ⟨hp.ne.symm, mem_activeBelow.2 ⟨hp.right_lt.2, hp.right_active⟩⟩
  have hperm := (List.perm_cons_erase (mem_activeBelow.2 ⟨hp.left_lt.2, hp.left_active⟩)).trans
    (.cons a (List.perm_cons_erase hb))
  have hrest : 0 ≤ ((((activeBelow n 512).erase a).erase b).map fun i => (getCount n.count i).toInt).sum := by
    refine List.sum_nonneg fun x hx => ?_
    obtain ⟨i, hi, rfl⟩ := List.mem_map.1 hx
    exact (mem_activeBelow.1 (List.mem_of_mem_erase (List.mem_of_mem_erase hi))).2.le
  rw [(hperm.map _).sum_eq, List.map_cons, List.map_cons, List.sum_cons, List.sum_cons]
  omega

theorem length_le_of_activePair {n : NodeTable} {a b : Nat} (hp : ActivePair n a b) :
    2 ≤ (activeBelow n 512).length := by
  have hsub : [a, b] ⊆ activeBelow n 512 := by
    simp [mem_activeBelow, hp.left_lt.2, hp.right_lt.2, hp.left_active, hp.right_active]
  exact (List.subperm_of_subset (by simp [hp.ne]) hsub).length_le

theorem activeBelow_length_le (n : NodeTable) (bound : Nat) : (activeBelow n bound).length ≤ bound :=
  (List.length_filter_le _ _).trans_eq List.length_range

/-- From a counted table the loop of BUILD ends with no error and no pair left (R123). -/
theorem buildLoop_of_counted {n : NodeTable} (h : Counted n) :
    (buildLoop (512 - n.nextFree.toNat) n).2 = none ∧
    selectPair (buildLoop (512 - n.nextFree.toNat) n).1 = none ∧
    Growing n (buildLoop (512 - n.nextFree.toNat) n).1 := by
  have hg := growing_of_counted h
  have hrange := hg.range
  obtain ⟨free, ⟨hgrow, hfree⟩, hends⟩ := buildLoop_ends
    (I := fun free m => Growing n m ∧ m.nextFree.toNat + free = 512)
    (fun free m a b m' ⟨hgm, hfm⟩ hsel hmerge => by
      have hp := activePair_of_selectPair hsel
      have hm := merged_of_merge hp (by omega) hmerge
      exact ⟨growing_of_merged hgm hp (by omega) hm, by rw [hm.nextFree]; omega⟩)
    (512 - n.nextFree.toNat) ⟨hg, by omega⟩
  rcases hends with ⟨herr, hsel⟩ | ⟨-, rfl, a, b, hsel⟩ | ⟨-, a, b, hsel, hmerge⟩
  · exact ⟨herr, hsel, hgrow⟩
  · have := length_le_of_activePair (activePair_of_selectPair hsel)
    have := hgrow.activeCount
    have := activeBelow_length_le n 256
    omega
  · have hover := merge_eq_none_iff.1 hmerge
    have hle := pair_weight_le (activePair_of_selectPair hsel)
    rw [hgrow.weight] at hle
    have := h.bounded
    omega

/-- A table with at least one merge and one active node is the tree of the invariants (R26). -/
theorem builtTree_of_growing {o n : NodeTable} (h : Growing o n) (hmade : 257 ≤ n.nextFree.toNat)
    (hlast : n.nextFree.toNat ≤ 511) (hone : activeBelow n 512 = [n.nextFree.toNat - 1]) : BuiltTree n where
  created := ⟨hmade, hlast⟩
  rootIsLast := h.rootIsLast (by omega)
  children k h1 h2 := by
    obtain ⟨a, b, hl, hr, hne, hak, hbk, hpa, hpb, -⟩ := h.made k h1 h2
    exact ⟨a, b, hl, hr, hne, hak, hbk, hpa, hpb⟩
  parents := h.parents
  rootHasNoParent := by
    have := h.lastActive (by omega)
    exact not_not.1 fun hp => by
      have := (h.merged _ (by omega)).2 hp
      omega
  othersHaveParents i h1 h2 := by
    refine (h.merged i (by omega)).1 ?_
    obtain ⟨a, b, -, -, -, -, -, -, -, ha, hb, hsum⟩ := h.made i h1 (by omega)
    have hinactive : ¬ 0 < (getCount n.count i).toInt := fun hpos => by
      have : i ∈ activeBelow n 512 := mem_activeBelow.2 ⟨by omega, hpos⟩
      rw [hone, List.mem_singleton] at this
      omega
    rcases abs_cases (getCount n.count i).toInt with habs | habs <;> omega
  untouched i h1 h2 := (h.unused i h1 h2).2

/-- With no pair left and two leaves to begin with, the node made last is the one active node (R123, R26 (b)). -/
theorem lastActive_of_no_pair {o n : NodeTable} (h : Growing o n) (hsel : selectPair n = none)
    (htwo : 2 ≤ (activeBelow o 256).length) :
    256 < n.nextFree.toNat ∧ activeBelow n 512 = [n.nextFree.toNat - 1] := by
  have hrange := h.range
  have hselectable : ∀ i ∈ activeBelow n 512, Selectable none n i := fun i hi => by
    obtain ⟨hi512, hc⟩ := mem_activeBelow.1 hi
    refine ⟨not_le.1 fun hle => ?_, hi512, by simp, hc⟩
    rw [(h.unused i hle hi512).1] at hc
    exact absurd hc (by decide)
  have honly : ∀ i ∈ activeBelow n 512, ∀ j ∈ activeBelow n 512, i = j := fun i hi j hj =>
    active_unique_of_selectPair hsel (hselectable i hi) (hselectable j hj)
  have hlen : (activeBelow n 512).length ≤ 1 := by
    match hl : activeBelow n 512 with
    | [] => simp
    | [_] => simp
    | x :: y :: l =>
      have hnodup := activeBelow_nodup n 512
      rw [hl] at hnodup honly
      simp [honly x (by simp) y (by simp)] at hnodup
  have hmade : 256 < n.nextFree.toNat := by
    have := h.activeCount
    omega
  refine ⟨hmade, ?_⟩
  have hmem : n.nextFree.toNat - 1 ∈ activeBelow n 512 := mem_activeBelow.2 ⟨by omega, h.lastActive hmade⟩
  obtain ⟨x, hx⟩ := List.length_eq_one_iff.1 (le_antisymm hlen (List.length_pos_of_mem hmem))
  rw [hx, List.mem_singleton] at hmem
  rw [hx, hmem]

theorem two_leaves_of_counted {n : NodeTable} (h : Counted n) {x : Nat} (h1 : 1 ≤ x) (h2 : x < 256)
    (hx : isActive (getCount n.count x) = true) : 2 ≤ (activeBelow n 256).length := by
  have hsub : [0, x] ⊆ activeBelow n 256 := by
    simp [mem_activeBelow, h.terminator, h2, (isActive_iff _).1 hx]
  exact (List.subperm_of_subset (by simp; omega) hsub).length_le

/-- BUILD over a loop that ends without an error. -/
theorem execBuild_of_no_error {s : State} (hf : s.nodes.nextFree.toNat ≤ 512)
    (h : (buildLoop (512 - s.nodes.nextFree.toNat) s.nodes).2 = none) :
    exec .build s = .next (setPc .serialize
      { s with nodes := (buildLoop (512 - s.nodes.nextFree.toNat) s.nodes).1 }) := by
  rw [exec, execBuild, if_neg (by omega), storeNodes, h]
  rfl

/-- Settles O27: the loop keeps `Growing`; where it ends, one node is active, and `Growing` is the tree. -/
theorem buildMakesTheTreeOfTheInvariants : Obligations.BuildMakesTheTreeOfTheInvariants := by
  rintro s hcounted ⟨x, h1, h2, hx⟩
  obtain ⟨herr, hsel, hgrow⟩ := buildLoop_of_counted hcounted
  obtain ⟨hmade, hone⟩ := lastActive_of_no_pair hgrow hsel (two_leaves_of_counted hcounted h1 h2 hx)
  have hfree := (growing_of_counted hcounted).range.2
  refine ⟨_, execBuild_of_no_error hfree herr, rfl, ?_⟩
  rw [setPc_nodes]
  dsimp only
  generalize (buildLoop (512 - s.nodes.nextFree.toNat) s.nodes).1 = n at *
  have hcount := hgrow.activeCount
  have hleaves := activeBelow_length_le s.nodes 256
  rw [hone, List.length_singleton] at hcount
  refine ⟨builtTree_of_growing hgrow hmade (by omega) hone, by omega, hone, ?_, ?_, ?_, ?_⟩
  · rw [← hgrow.weight, hone, List.map_singleton, List.sum_singleton]
  · intro k a b hk hkf hl hr
    obtain ⟨c, d, hlc, hrd, -, -, -, -, -, -, -, hsum⟩ := hgrow.made k hk hkf
    obtain rfl : a = c := by omega
    obtain rfl : b = d := by omega
    exact hsum
  · intro i hi
    refine ⟨hgrow.leaves i hi, ?_⟩
    have hparent := hgrow.merged i (by omega)
    have hmagnitude := hgrow.leaves i hi
    have hinactive : ¬ 0 < (getCount n.count i).toInt := fun hpos => by
      have : i ∈ activeBelow n 512 := mem_activeBelow.2 ⟨by omega, hpos⟩
      rw [hone, List.mem_singleton] at this
      omega
    rw [isActive_iff, ← hmagnitude, abs_pos, show (-1 : Int) = noNode from rfl, ← hparent]
    omega
  · exact fun i hi h512 => (hgrow.unused i hi h512).1

end Sys2Proof.Machine

namespace Sys2Proof.Machine

/-! ### Rules of the phase operations

For each operation that loops, what its steps keep and what its errors lead to is asked of the elementary updates once
(its rule), and the induction over the loop is done once. -/

/-- The end of a phase operation whose course goes on under `P` and takes its errors under `Q`. -/
theorem of_endPhase {P Q : State → Prop} {i : Instr} {r : Flow} {t : State} (hr : r.Ends P Q)
    (hnext : ∀ s, P s → Q (setPc i s)) (ht : r.endPhase i = .next t) : Q t := by
  rcases endPhase_cases ht with ⟨s, rfl, rfl⟩ | rfl
  · exact hnext s hr
  · exact hr

/-- An append keeps `P`, and a failed one leads from `P` to `Q` (R56). -/
structure AppendRule (P Q : State → Prop) : Prop where
  append : ∀ v s, P s → P (appendBytes v (popAnswer s))
  appendFails : ∀ s, P s → Q (takeError .ioFailure (popAnswer s))

section Appends
variable {P Q : State → Prop} (h : AppendRule P Q) {s t : State}
include h

theorem memWrite_ends (v : List Byte) (hs : P s) : (memWrite v s).Ends P Q := by
  rcases memWrite_cases v s with ⟨-, heq⟩ | ⟨-, heq⟩ <;> rw [heq]
  · exact h.append v s hs
  · exact h.appendFails s hs

theorem memWrites_ends (vs : List (List Byte)) (hs : P s) : (memWrites vs s).Ends P Q := by
  induction vs generalizing s with
  | nil => exact hs
  | cons v vs ih => exact (memWrite_ends h v hs).andThen fun t ht => ih ht

theorem writeKept_ends (v : List Byte) (hs : P s) : (writeKept v s).Ends P Q := by
  unfold writeKept
  split
  · exact hs
  · exact memWrite_ends h v hs

theorem execWrMagic_leads (hnext : ∀ s, P s → Q (setPc .decideMode s)) (ht : exec .wrMagic s = .next t)
    (hs : P s) : Q t :=
  of_endPhase (memWrite_ends h _ hs) hnext ht

theorem execWrFlag_leads (hnext : ∀ i s, P s → (i = .freq ∨ i = .copyEnc) → Q (setPc i s))
    (ht : exec .wrFlag s = .next t) (hs : P s) : Q t := by
  refine of_endPhase (memWrite_ends h _ hs) (fun u hu => hnext _ u hu ?_) ht
  split
  · exact .inl rfl
  · exact .inr rfl

theorem execSerialize_leads (hnext : ∀ s, P s → Q (setPc .codegen s)) (ht : exec .serialize s = .next t)
    (hs : P s) : Q t :=
  of_endPhase (memWrites_ends h _ hs) hnext ht

end Appends

/-! ### FREQ -/

/-- The counts after the scan of the chunk buffer (R111). -/
def countChunk (s : State) : State :=
  { s with nodes := { s.nodes with count := (scanChunk s.buf s.nodes.count).1 } }

theorem freqLoop_succ (fuel pos : Nat) (s : State) :
    freqLoop (fuel + 1) pos s =
      if s.srclen.toNat ≤ pos then .go s
      else if (scanChunk (readChunk pos s).buf (readChunk pos s).nodes.count).2 then
        raise .countOverflow (countChunk (readChunk pos s))
      else freqLoop fuel (pos + s.cfg.chunk) (countChunk (readChunk pos s)) := rfl

/-- What the steps of FREQ keep, and its one error (R111). -/
structure FreqRule (P Q : State → Prop) : Prop where
  read : ∀ pos s, P s → P (readChunk pos s)
  count : ∀ s, P s → P (countChunk s)
  overflow : ∀ s, P s → Q (takeError .countOverflow s)

theorem freqLoop_ends {P Q : State → Prop} (h : FreqRule P Q) (fuel pos : Nat) {s : State} (hs : P s) :
    (freqLoop fuel pos s).Ends P Q := by
  induction fuel generalizing pos s with
  | zero => exact hs
  | succ fuel ih =>
    have hcounted : P (countChunk (readChunk pos s)) := h.count _ (h.read pos s hs)
    rw [freqLoop_succ]
    split
    · exact hs
    · split
      · exact h.overflow _ hcounted
      · exact ih _ hcounted

theorem execFreq_leads {P Q : State → Prop} (h : FreqRule P Q) (hnext : ∀ s, P s → Q (setPc .build s)) {s t : State}
    (ht : exec .freq s = .next t) (hs : P s) : Q t :=
  of_endPhase (freqLoop_ends h _ _ hs) hnext ht

/-! ### PACK -/

/-- What the steps of PACK keep (R160, R161). -/
structure PackRule (P Q : State → Prop) : Prop extends AppendRule P Q where
  position : ∀ p s, P s → P (setPos p s)
  shift : ∀ b s, P s → P (shiftIn b s)
  clear : ∀ s, P s → P (clearAcc s)

section Pack
variable {P Q : State → Prop} (h : PackRule P Q) {s t : State}
include h

theorem appendBit_ends (b : Bool) (hs : P s) : (appendBit b s).Ends P Q := by
  unfold appendBit
  split
  · exact (memWrite_ends h.toAppendRule _ (h.shift b s hs)).andThen h.clear
  · exact h.shift b s hs

theorem appendBits_ends (bits : List Bool) (hs : P s) : (appendBits bits s).Ends P Q := by
  induction bits generalizing s with
  | nil => exact hs
  | cons b bits ih => exact (appendBit_ends h b hs).andThen fun t ht => ih ht

theorem packBytes_ends (pos : Nat) (bs : List Byte) (hs : P s) : (packBytes pos bs s).Ends P Q := by
  induction bs generalizing pos s with
  | nil => exact hs
  | cons b bs ih => exact (appendBits_ends h _ (h.position _ s hs)).andThen fun t ht => ih _ ht

theorem execPack_leads (hnext : ∀ s, P s → Q (setPc .finish s)) (ht : exec .pack s = .next t) (hs : P s) : Q t :=
  of_endPhase ((packBytes_ends h _ _ (h.clear _ (h.position _ s hs))).andThen fun _ hu => appendBits_ends h _ hu)
    hnext ht

end Pack

/-! ### COPY_ENC and COPY_DEC -/

/-- What the steps of COPY_ENC keep (R188). -/
structure CopyEncRule (P Q : State → Prop) : Prop extends AppendRule P Q where
  read : ∀ pos s, P s → P (readChunk pos s)

theorem copyEncLoop_ends {P Q : State → Prop} (h : CopyEncRule P Q) (fuel pos : Nat) {s : State} (hs : P s) :
    (copyEncLoop fuel pos s).Ends P Q := by
  induction fuel generalizing pos s with
  | zero => exact hs
  | succ fuel ih =>
    unfold copyEncLoop
    split
    · exact hs
    · exact (writeKept_ends h.toAppendRule _ (h.read pos s hs)).andThen fun t ht => ih _ ht

theorem execCopyEnc_leads {P Q : State → Prop} (h : CopyEncRule P Q) (hnext : ∀ s, P s → Q (setPc .finish s))
    {s t : State} (ht : exec .copyEnc s = .next t) (hs : P s) : Q t :=
  of_endPhase (copyEncLoop_ends h _ _ hs) hnext ht

/-- What the steps of COPY_DEC keep (R194). -/
structure CopyDecRule (P Q : State → Prop) : Prop extends AppendRule P Q where
  position : ∀ p s, P s → P (setPos p s)

theorem copyDecLoop_ends {P Q : State → Prop} (h : CopyDecRule P Q) (fuel pos : Nat) {s : State} (hs : P s) :
    (copyDecLoop fuel pos s).Ends P Q := by
  induction fuel generalizing pos s with
  | zero => exact hs
  | succ fuel ih =>
    unfold copyDecLoop
    split
    · exact hs
    · exact (memWrite_ends h.toAppendRule _ hs).andThen fun t ht => ih _ (h.position _ t ht)

theorem execCopyDec_leads {P Q : State → Prop} (h : CopyDecRule P Q) (hnext : ∀ s, P s → Q (setPc .finish s))
    {s t : State} (ht : exec .copyDec s = .next t) (hs : P s) : Q t :=
  of_endPhase (copyDecLoop_ends h _ _ hs) hnext ht

/-! ### UNPACK -/

/-- A byte in the bit queue, the position after it (R165). -/
def fetchByte (b : Byte) (s : State) : State := setPos (s.srcpos.toNat + 1) { s with bq := b, nbq := 8#4 }

theorem refill_of_bits {s : State} (h : s.nbq ≠ 0#4) : refill s = .go s := by
  simp [refill, h]

/-- Everything a refill of the empty queue can do. -/
theorem refill_of_empty {s : State} (h : s.nbq = 0#4) :
    refill s = raise .insufficientData s ∨ ∃ b, refill s = .go (fetchByte b s) := by
  by_cases hfin : finished s = true
  · exact .inl (by simp [refill, h, hfin])
  · exact .inr ⟨(memRead s.srcpos.toNat 1 s).getD 0 0#8, by rw [refill, if_pos h, if_neg hfin, fetchByte]⟩

/-- What the steps of UNPACK keep, and its errors; a bit is taken only from a queue that has one (R165 to R168). -/
structure UnpackRule (P Q : State → Prop) : Prop extends AppendRule P Q where
  start : ∀ s, P s → P (startWalk s)
  fetch : ∀ b s, P s → P (fetchByte b s)
  takeBit : ∀ s, P s → s.nbq ≠ 0#4 → P (dropBit s)
  stand : ∀ c s, P s → isNodeId c = true → P { s with cur := c }
  toRoot : ∀ s, P s → P (backToRoot s)
  starved : ∀ s, P s → Q (takeError .insufficientData s)
  inconsistent : ∀ s, P s → Q (takeError .structuralInconsistency s)

section Unpack
variable {P Q : State → Prop} (h : UnpackRule P Q) {s t : State}
include h

theorem refill_ends (hs : P s) : (refill s).Ends (fun u => P u ∧ u.nbq ≠ 0#4) Q := by
  by_cases hempty : s.nbq = 0#4
  · rcases refill_of_empty hempty with heq | ⟨b, heq⟩ <;> rw [heq]
    · exact h.starved s hs
    · exact ⟨h.fetch b s hs, by simp [fetchByte]⟩
  · rw [refill_of_bits hempty]
    exact ⟨hs, hempty⟩

theorem descend_ends (i : Nat) (hs : P s) : (descend i s).Ends P Q := by
  refine (refill_ends h hs).andThen fun t ⟨ht, hbits⟩ => ?_
  have hdrop : P (dropBit t) := h.takeBit t ht hbits
  dsimp only
  split
  next hid => exact h.stand _ _ hdrop hid
  · exact h.inconsistent _ hdrop

theorem emit_ends (sym : Byte) (hs : P s) : (emit sym s).Ends P Q :=
  (memWrite_ends h.toAppendRule _ hs).andThen h.toRoot

theorem walk_ends (bits : Nat) (hs : P s) : (walk bits s).Ends P Q := by
  induction bits generalizing s with
  | zero => exact h.starved s hs
  | succ bits ih =>
    refine (descend_ends h _ hs).andThen fun t ht => ?_
    split
    · exact ht
    · split
      · exact (emit_ends h _ ht).andThen fun u hu => ih hu
      · exact ih ht

theorem execUnpack_leads (hnext : ∀ s, P s → Q (setPc .finish s)) (ht : exec .unpack s = .next t) (hs : P s) :
    Q t := by
  refine of_endPhase (P := P) ?_ hnext ht
  split
  · exact walk_ends h _ (h.start s hs)
  · exact h.inconsistent s hs

end Unpack

/-! ### The operations without a loop: everything each can do -/

theorem execInit_cases {s t : State} (h : exec .init s = .next t) :
    (t = setPc (if s.op = 1#2 then .wrMagic else .rdMagic) (startOperation (newDestination (popAnswer s)))) ∨
    (t = takeError .ioFailure (newDestination (popAnswer s))) := by
  cases hopen : nextAnswer s
  · exact .inr (by simpa [exec, execInit, hopen, raise] using h.symm)
  · exact .inl (by simpa [exec, execInit, hopen] using h.symm)

theorem execDecideMode_eq (s : State) :
    exec .decideMode s = .next (setPc .wrFlag (setHuff (favorable s.srclen.toNat s.cfg.width.bytes) s)) := rfl

theorem execCodegen_cases {s t : State} (h : exec .codegen s = .next t) :
    ∃ cs, codesOf s.nodes (List.range 256) = .ok cs ∧
      t = setPc .pack { s with code := tabulate 256 fun i => cs.getD i [] } := by
  rw [exec, execCodegen] at h
  cases hcodes : codesOf s.nodes (List.range 256) with
  | error f => simp [hcodes] at h
  | ok cs => exact ⟨cs, rfl, by simpa [hcodes] using h.symm⟩

theorem execBuild_cases {s t : State} (h : exec .build s = .next t) :
    s.nodes.nextFree.toNat ≤ 512 ∧
    ((t = setPc .serialize { s with nodes := (buildLoop (512 - s.nodes.nextFree.toNat) s.nodes).1 }) ∨
      ∃ x, t = takeError x { s with nodes := (buildLoop (512 - s.nodes.nextFree.toNat) s.nodes).1 }) := by
  by_cases hf : 512 < s.nodes.nextFree.toNat
  · simp [exec, execBuild, hf] at h
  · rw [exec, execBuild, if_neg hf, storeNodes] at h
    refine ⟨by omega, ?_⟩
    split at h
    · exact .inl (by simpa using h.symm)
    next x _ => exact .inr ⟨x, by simpa [raise] using h.symm⟩

theorem execRdMagic_cases {s t : State} (h : exec .rdMagic s = .next t) :
    t = setPc .rdFlag (setPos 4 s) ∨ t = takeError .formatMismatch s ∨ t = takeError .formatMismatch (setPos 4 s) := by
  rw [exec, execRdMagic, testMagic] at h
  split at h
  · exact .inr (.inl (by simpa [raise] using h.symm))
  · split at h
    · exact .inl (by simpa using h.symm)
    · exact .inr (.inr (by simpa [raise] using h.symm))

theorem execRdFlag_cases {s t : State} (h : exec .rdFlag s = .next t) :
    (∃ b, t = dispatchFlag b (setPos 5 s)) ∨ t = takeError .insufficientData s := by
  rw [exec, execRdFlag] at h
  split at h
  · exact .inr (by simpa [raise] using h.symm)
  · exact .inl ⟨_, by simpa using h.symm⟩

theorem execDeserialize_cases {s t : State} (h : exec .deserialize s = .next t) :
    t = setPc .unpack (setPos (s.srcpos.toNat + s.cfg.treeBytes) (loadTree s.srcpos.toNat s)) ∨
    t = takeError .insufficientData s := by
  rw [exec, execDeserialize] at h
  split at h
  · exact .inr (by simpa [raise] using h.symm)
  · exact .inl (by simpa using h.symm)

theorem execFinish_cases {s t : State} (h : exec .finish s = .next t) :
    t = setPc .done { releaseStreams (popAnswer s) with status := s.status.finished } ∨
    t = takeError .ioFailure (popAnswer s) := by
  rw [exec, execFinish] at h
  split at h
  · exact .inl (by simpa using h.symm)
  · exact .inr (by simpa [raise] using h.symm)

end Sys2Proof.Machine

namespace Sys2Proof.Machine

/-- Settles O11. -/
theorem resetLeavesTheControlRegistersZero : Obligations.ResetLeavesTheControlRegistersZero := by
  unfold Obligations.ResetLeavesTheControlRegistersZero
  decide

/-! ### The step -/

theorem runPhase_of_decode {s : State} {i : Instr} (h : decode .phase s.phase.toNat = .instr i) :
    runPhase s = exec i s := by
  simp only [runPhase, h]

theorem runLine_of_decode {f : Format} {w : Nat} {i : Instr} (h : decode f w = .instr i) (s : State) :
    runLine f w s = exec i s := by
  simp only [runLine, h]

theorem writeCmd_of_decode {v : Size} {i : Instr} (h : decode .cmdw (v.toNat % 256) = .instr i) (s : State) :
    writeCmd (v.setWidth 8) s = exec i s := by
  have hlow : (v.setWidth 8).toNat = v.toNat % 256 := by simp
  simp only [writeCmd, hlow, h]

/-- Settles O3: each entry of the schedule, by the decoder it goes through. -/
theorem stepRunsTheDecodedInstruction : Obligations.StepRunsTheDecodedInstruction := by
  refine ⟨?_, fun s i v rest hin hdec => ?_, fun s i f w rest hin hdec => ?_⟩
  · rintro s i rest (hin | ⟨hin, rfl⟩) hdec
    · have hturn : step s = runPhase { s with inputs := rest } := by simp only [step, hin]
      exact hturn.trans (runPhase_of_decode hdec)
    · have hsame : { s with inputs := [] } = s := by rw [← hin]
      rw [step_of_no_inputs hin, hsame, runPhase_of_decode hdec]
  · exact (step_of_event hin).trans (writeCmd_of_decode hdec _)
  · exact (step_of_event hin).trans (runLine_of_decode hdec _)

/-! ### Reads of the control registers -/

theorem readReg_of_rest {s : State} (h : s.status.busy = false) (r : CtrlReg) : readReg r s = regValue r s := by
  simp [readReg, h]

theorem status_bits (st : Status) :
    (st.toByte.setWidth 64).getLsbD 0 = st.busy ∧ (st.toByte.setWidth 64).getLsbD 1 = st.done ∧
      (st.toByte.setWidth 64).getLsbD 2 = st.err ∧ (st.toByte.setWidth 64).getLsbD 3 = st.huff ∧
      (st.toByte.setWidth 64).toNat < 16 := by
  obtain ⟨busy, done, err, huff⟩ := st
  revert busy done err huff
  decide

/-- Settles O8: at rest a read is the register's value, which is exact register by register. -/
theorem hostReadsAreExactAtRest : Obligations.HostReadsAreExactAtRest := by
  intro s r hrest
  refine ⟨readReg r s, rfl, ?_⟩
  rw [readReg_of_rest hrest]
  cases r with
  | cmd => rfl
  | status =>
    obtain ⟨hbusy, hdone, herr, hhuff, hlt⟩ := status_bits s.status
    exact ⟨⟨hbusy, hdone, herr, hhuff⟩, hlt⟩
  | errcode => exact BitVec.toNat_setWidth_of_le (by decide)
  | phase => exact BitVec.toNat_setWidth_of_le (by decide)
  | srclen => rfl
  | srcpos => rfl
  | dstlen => rfl

end Sys2Proof.Machine

namespace Sys2Proof.Machine

/-! ### Frames of the operations (R45) -/

/-- The counts FREQ does not touch: the terminator's and those of the internal slots (R111). -/
theorem getCount_scanChunk (bs : List Byte) (c : Vector Count 512) {i : Nat} (hi : i = 0 ∨ 256 ≤ i) :
    getCount (scanChunk bs c).1 i = getCount c i := by
  induction bs generalizing c with
  | nil => rfl
  | cons b bs ih =>
    unfold scanChunk
    split
    · rfl
    next hb =>
      have hne : b.toNat ≠ i := by
        have hlt := b.isLt
        have hpos : b.toNat ≠ 0 := fun h0 => hb (BitVec.eq_of_toNat_eq h0)
        omega
      split
      · rfl
      next c' hc =>
        rw [ih c']
        unfold countByte at hc
        split at hc
        · cases hc
        · obtain rfl := Option.some.inj hc
          rw [getCount_set, if_neg fun h => hne h.1]

/-- The child links of the leaves, which BUILD does not touch. -/
def SameLeafLinks (n m : NodeTable) : Prop :=
  ∀ i : Nat, i < 256 → getLink m.left i = getLink n.left i ∧ getLink m.right i = getLink n.right i

theorem buildLoop_sameLeafLinks {n : NodeTable} (h256 : 256 ≤ n.nextFree.toNat) (h512 : n.nextFree.toNat ≤ 512) :
    SameLeafLinks n (buildLoop (512 - n.nextFree.toNat) n).1 := by
  obtain ⟨_, ⟨-, -, hlinks⟩, -⟩ := buildLoop_ends
    (I := fun free m => 256 ≤ m.nextFree.toNat ∧ m.nextFree.toNat + free = 512 ∧ SameLeafLinks n m)
    (fun free m a b m' ⟨hlow, hfree, hsame⟩ hsel hmerge => by
      have hm := merged_of_merge (activePair_of_selectPair hsel) (by omega) hmerge
      refine ⟨by rw [hm.nextFree]; omega, by rw [hm.nextFree]; omega, fun i hi => ?_⟩
      rw [hm.leftOther i (by omega), hm.rightOther i (by omega)]
      exact hsame i hi)
    (512 - n.nextFree.toNat) ⟨h256, by omega, fun _ _ => ⟨rfl, rfl⟩⟩
  exact hlinks

/-- What the operations that only append may change. -/
def AppendFrame (s t : State) : Prop :=
  t = { s with
    dst := t.dst, dstlen := t.dstlen, answers := t.answers, phase := t.phase, status := t.status,
    errcode := t.errcode, delivered := t.delivered, streamsOpen := t.streamsOpen }

theorem appendFrame_rule (s : State) : AppendRule (AppendFrame s) (AppendFrame s) where
  append v _ h := congrArg (fun u => appendBytes v (popAnswer u)) h
  appendFails _ h := congrArg (fun u => takeError .ioFailure (popAnswer u)) h

theorem appendFrame_setPc {s u : State} (i : Instr) (h : AppendFrame s u) : AppendFrame s (setPc i u) :=
  congrArg (setPc i) h

/-- What FREQ may change. -/
def FreqFrame (s t : State) : Prop :=
  t = { s with
    nodes := { s.nodes with count := t.nodes.count }, srcpos := t.srcpos, buf := t.buf, phase := t.phase,
    status := t.status, errcode := t.errcode, delivered := t.delivered, streamsOpen := t.streamsOpen } ∧
  ∀ i : Nat, (i = 0 ∨ 256 ≤ i) → getCount t.nodes.count i = getCount s.nodes.count i

theorem freqFrame_rule (s : State) : FreqRule (FreqFrame s) (FreqFrame s) where
  read pos _ h := ⟨by rw [h.1]; rfl, h.2⟩
  count _ h := ⟨congrArg countChunk h.1, fun i hi => (getCount_scanChunk _ _ hi).trans (h.2 i hi)⟩
  overflow _ h := ⟨by rw [h.1]; rfl, h.2⟩

/-- What PACK may change. -/
def PackFrame (s t : State) : Prop :=
  t = { s with
    acc := t.acc, nacc := t.nacc, srcpos := t.srcpos, dst := t.dst, dstlen := t.dstlen, answers := t.answers,
    phase := t.phase, status := t.status, errcode := t.errcode, delivered := t.delivered,
    streamsOpen := t.streamsOpen }

theorem packFrame_rule (s : State) : PackRule (PackFrame s) (PackFrame s) where
  append v _ h := congrArg (fun u => appendBytes v (popAnswer u)) h
  appendFails _ h := congrArg (fun u => takeError .ioFailure (popAnswer u)) h
  position p _ h := congrArg (setPos p) h
  shift b _ h := congrArg (shiftIn b) h
  clear _ h := congrArg clearAcc h

/-- What COPY_ENC may change. -/
def CopyEncFrame (s t : State) : Prop :=
  t = { s with
    buf := t.buf, srcpos := t.srcpos, dst := t.dst, dstlen := t.dstlen, answers := t.answers, phase := t.phase,
    status := t.status, errcode := t.errcode, delivered := t.delivered, streamsOpen := t.streamsOpen }

theorem copyEncFrame_rule (s : State) : CopyEncRule (CopyEncFrame s) (CopyEncFrame s) where
  append v _ h := congrArg (fun u => appendBytes v (popAnswer u)) h
  appendFails _ h := congrArg (fun u => takeError .ioFailure (popAnswer u)) h
  read pos _ h := by rw [CopyEncFrame, h]; rfl

/-- What COPY_DEC may change. -/
def CopyDecFrame (s t : State) : Prop :=
  t = { s with
    srcpos := t.srcpos, dst := t.dst, dstlen := t.dstlen, answers := t.answers, phase := t.phase,
    status := t.status, errcode := t.errcode, delivered := t.delivered, streamsOpen := t.streamsOpen }

theorem copyDecFrame_rule (s : State) : CopyDecRule (CopyDecFrame s) (CopyDecFrame s) where
  append v _ h := congrArg (fun u => appendBytes v (popAnswer u)) h
  appendFails _ h := congrArg (fun u => takeError .ioFailure (popAnswer u)) h
  position p _ h := congrArg (setPos p) h

/-- What UNPACK may change. -/
def UnpackFrame (s t : State) : Prop :=
  t = { s with
    bq := t.bq, nbq := t.nbq, cur := t.cur, srcpos := t.srcpos, dst := t.dst, dstlen := t.dstlen,
    answers := t.answers, phase := t.phase, status := t.status, errcode := t.errcode, delivered := t.delivered,
    streamsOpen := t.streamsOpen }

theorem unpackFrame_rule (s : State) : UnpackRule (UnpackFrame s) (UnpackFrame s) where
  append v _ h := congrArg (fun u => appendBytes v (popAnswer u)) h
  appendFails _ h := congrArg (fun u => takeError .ioFailure (popAnswer u)) h
  start _ h := by rw [UnpackFrame, h]; rfl
  fetch b _ h := congrArg (fetchByte b) h
  takeBit _ h _ := congrArg dropBit h
  stand c _ h _ := by rw [UnpackFrame, h]
  toRoot _ h := by rw [UnpackFrame, h]; rfl
  starved _ h := congrArg (takeError .insufficientData) h
  inconsistent _ h := congrArg (takeError .structuralInconsistency) h

/-- Settles O16: the loops keep their frame step by step; the rest are their few outcomes. -/
theorem encodeOperationsKeepTheAccessTable : Obligations.EncodeOperationsKeepTheAccessTable := by
  intro s t
  refine ⟨?_, ?_, fun ht => ?_, fun ht => ?_, fun ht => ?_, fun ht => ?_, fun ht => ?_⟩
  · rintro (ht | ht | ht)
    · exact execWrMagic_leads (appendFrame_rule s) (fun _ => appendFrame_setPc _) ht rfl
    · exact execWrFlag_leads (appendFrame_rule s) (fun _ _ hu _ => appendFrame_setPc _ hu) ht rfl
    · exact execSerialize_leads (appendFrame_rule s) (fun _ => appendFrame_setPc _) ht rfl
  · rintro ⟨⟩
    rfl
  · exact execFreq_leads (freqFrame_rule s) (fun _ hu => ⟨congrArg (setPc .build) hu.1, hu.2⟩)
      ht ⟨rfl, fun _ _ => rfl⟩
  · obtain ⟨h512, rfl | ⟨x, rfl⟩⟩ := execBuild_cases ht
    · exact ⟨rfl, fun h256 => buildLoop_sameLeafLinks h256 h512⟩
    · exact ⟨rfl, fun h256 => buildLoop_sameLeafLinks h256 h512⟩
  · obtain ⟨cs, -, rfl⟩ := execCodegen_cases ht
    rfl
  · exact execPack_leads (packFrame_rule s) (fun _ => congrArg (setPc .finish)) ht rfl
  · exact execCopyEnc_leads (copyEncFrame_rule s) (fun _ => congrArg (setPc .finish)) ht rfl

/-- Settles O17, in the same way. -/
theorem decodeOperationsKeepTheAccessTable : Obligations.DecodeOperationsKeepTheAccessTable := by
  intro s t
  refine ⟨fun ht => ?_, fun ht => ?_, fun ht => ?_, fun ht => ?_, fun ht => ?_, fun ht => ?_, fun ht => ?_⟩
  · rcases execInit_cases ht with rfl | rfl
    · simp only [setPc, startOperation, newDestination, popAnswer]
    · rfl
  · rcases execRdMagic_cases ht with rfl | rfl | rfl <;> rfl
  · rcases execRdFlag_cases ht with ⟨b, rfl⟩ | rfl <;> rfl
  · rcases execDeserialize_cases ht with rfl | rfl
    · simp only [setPc, setPos, loadTree]
    · rfl
  · exact execUnpack_leads (unpackFrame_rule s) (fun _ => congrArg (setPc .finish)) ht rfl
  · exact execCopyDec_leads (copyDecFrame_rule s) (fun _ => congrArg (setPc .finish)) ht rfl
  · rcases execFinish_cases ht with rfl | rfl <;> rfl

end Sys2Proof.Machine

namespace Sys2Proof.Machine

/-! ### Values that fit an index field (R22, R87) -/

/-- Half the range of an index field. -/
theorem width_half_range (w : IdxWidth) :
    512 < 2 ^ (8 * w.bytes - 1) ∧ 2 ^ (8 * w.bytes) = 2 * 2 ^ (8 * w.bytes - 1) := by
  cases w <;> decide

theorem fitsIdx_iff {w : IdxWidth} {v : Int} :
    fitsIdx w v = true ↔ -((2 ^ (8 * w.bytes - 1) : Nat) : Int) ≤ v ∧ v < (2 ^ (8 * w.bytes - 1) : Nat) := by
  rw [fitsIdx, Bool.and_eq_true, decide_eq_true_iff, decide_eq_true_iff]

theorem fitsIdx_of_small (w : IdxWidth) {v : Int} (h1 : -1 ≤ v) (h2 : v ≤ 512) : fitsIdx w v = true := by
  have := (width_half_range w).1
  rw [fitsIdx_iff]
  omega

theorem fitsIdx_of_isNodeId (w : IdxWidth) {v : Int} (h : isNodeId v = true) : fitsIdx w v = true := by
  simp only [isNodeId, Bool.and_eq_true, decide_eq_true_eq] at h
  exact fitsIdx_of_small w (by omega) (by omega)

theorem fitsIdx_signedOf (w : IdxWidth) {p : Nat} (h : p < 2 ^ (8 * w.bytes)) : fitsIdx w (signedOf w p) = true := by
  have hfull := (width_half_range w).2
  rw [fitsIdx_iff, signedOf]
  split <;> omega

theorem fitsIdx_unIdx {w : IdxWidth} (e : Endian) {bs : List Byte} (h : bs.length = w.bytes) :
    fitsIdx w (unIdx w e bs) = true := by
  apply fitsIdx_signedOf
  have := leNat_lt (inOrder e bs)
  rwa [inOrder_length, h, show 256 = 2 ^ 8 from rfl, ← Nat.pow_mul] at this

theorem linksFit_tabulate {w : IdxWidth} {f : Nat → Int} (h : ∀ i, fitsIdx w (f i) = true) :
    LinksFit w (tabulate 512 f) := fun i hi => by
  rw [getLink_tabulate f hi]
  exact h i

theorem linksFit_replicate_noNode (w : IdxWidth) : LinksFit w (Vector.replicate 512 noNode) := fun i hi => by
  rw [getLink_replicate _ hi]
  exact fitsIdx_of_small w (by decide) (by decide)

theorem fitsIdx_readField (pos j : Nat) (s : State) : fitsIdx s.cfg.width (readField pos j s) = true :=
  fitsIdx_unIdx _ (memRead_length _ _ _)

theorem linksFit_loadedLinks (k pos : Nat) (s : State) : LinksFit s.cfg.width (loadedLinks k pos s) :=
  linksFit_tabulate fun i => by
    split
    · exact fitsIdx_of_small _ (by decide) (by decide)
    · exact fitsIdx_readField _ _ s

/-! ### The node table BUILD leaves -/

/-- What the invariant asks of the node table (R22, R24, R25). -/
structure TableOk (w : IdxWidth) (n : NodeTable) : Prop where
  nextFreeRange : 256 ≤ n.nextFree.toNat ∧ n.nextFree.toNat ≤ 512
  leftFits : LinksFit w n.left
  rightFits : LinksFit w n.right
  parentFits : LinksFit w n.parent
  rootFits : fitsIdx w n.root = true

theorem tableOk_initialNodes (w : IdxWidth) : TableOk w initialNodes where
  nextFreeRange := by decide
  leftFits := linksFit_replicate_noNode w
  rightFits := linksFit_replicate_noNode w
  parentFits := linksFit_replicate_noNode w
  rootFits := fitsIdx_of_small w (by decide) (by decide)

theorem tableOk_of_merged {w : IdxWidth} {n m : NodeTable} {a b : Nat} (h : TableOk w n) (hp : ActivePair n a b)
    (hf : n.nextFree.toNat < 512) (hm : Merged n a b m) : TableOk w m where
  nextFreeRange := by
    have := h.nextFreeRange
    have := hm.nextFree
    omega
  leftFits i hi := by
    by_cases hif : i = n.nextFree.toNat
    · rw [hif, hm.leftNew]
      have := hp.left_lt
      exact fitsIdx_of_small w (by omega) (by omega)
    · rw [hm.leftOther i hif]
      exact h.leftFits i hi
  rightFits i hi := by
    by_cases hif : i = n.nextFree.toNat
    · rw [hif, hm.rightNew]
      have := hp.right_lt
      exact fitsIdx_of_small w (by omega) (by omega)
    · rw [hm.rightOther i hif]
      exact h.rightFits i hi
  parentFits i hi := by
    have hfree : fitsIdx w (n.nextFree.toNat : Int) = true := fitsIdx_of_small w (by omega) (by omega)
    by_cases hia : i = a
    · rwa [hia, hm.parentLeft]
    · by_cases hib : i = b
      · rwa [hib, hm.parentRight]
      · rw [hm.parentOther i hia hib]
        exact h.parentFits i hi
  rootFits := by
    rw [hm.root]
    exact fitsIdx_of_small w (by omega) (by omega)

theorem tableOk_buildLoop {w : IdxWidth} {n : NodeTable} (h : TableOk w n) :
    TableOk w (buildLoop (512 - n.nextFree.toNat) n).1 := by
  obtain ⟨_, ⟨hok, -⟩, -⟩ := buildLoop_ends
    (I := fun free m => TableOk w m ∧ m.nextFree.toNat + free = 512)
    (fun free m a b m' ⟨hok, hfree⟩ hsel hmerge => by
      have hp := activePair_of_selectPair hsel
      have hm := merged_of_merge hp (by omega) hmerge
      exact ⟨tableOk_of_merged hok hp (by omega) hm, by rw [hm.nextFree]; omega⟩)
    (512 - n.nextFree.toNat) ⟨h, by have := h.nextFreeRange; omega⟩
  exact hok

/-! ### The codes CODEGEN makes have at most 255 bits (R27, R151) -/

theorem walkUp_length {n : NodeTable} {fuel i : Nat} {bits c : List Bool} (h : walkUp n fuel i bits = .ok c) :
    c.length ≤ bits.length + fuel := by
  induction fuel generalizing i bits with
  | zero =>
    unfold walkUp at h
    split at h
    · obtain rfl := Except.ok.inj h
      omega
    · cases h
  | succ fuel ih =>
    unfold walkUp at h
    split at h
    · obtain rfl := Except.ok.inj h
      omega
    · dsimp only at h
      split at h
      · have := ih h
        rw [List.length_cons] at this
        omega
      · cases h

theorem codesOf_length {n : NodeTable} {ss : List Nat} {cs : List (List Bool)} (h : codesOf n ss = .ok cs) :
    ∀ c ∈ cs, c.length ≤ 255 := by
  induction ss generalizing cs with
  | nil =>
    obtain rfl := Except.ok.inj h
    simp
  | cons s ss ih =>
    unfold codesOf at h
    split at h
    · cases h
    next c hc =>
      split at h
      · cases h
      next cs' hcs =>
        obtain rfl := Except.ok.inj h
        have hlen := walkUp_length hc
        exact List.forall_mem_cons.2 ⟨by simpa using hlen, ih hcs⟩

theorem getCode_codegen_length {n : NodeTable} {ss : List Nat} {cs : List (List Bool)} (h : codesOf n ss = .ok cs)
    (b : Byte) : (getCode (tabulate 256 fun i => cs.getD i []) b).length ≤ 255 := by
  rw [getCode_tabulate, List.getD_eq_getElem?_getD]
  cases hc : cs[b.toNat]? with
  | none => simp
  | some c => exact codesOf_length h c (List.mem_of_getElem? hc)

/-! ### The invariant inside an operation -/

/-- The part of `Inv` that no control register enters. -/
structure DataOk (s : State) : Prop where
  srcWf : Memory.wf s.src = true
  dstWf : Memory.wf s.dst = true
  leftoverWf : Memory.wf s.leftover = true
  deliveredBound : s.delivered ≤ s.dst.length
  nextFreeRange : 256 ≤ s.nodes.nextFree.toNat ∧ s.nodes.nextFree.toNat ≤ 512
  leftFits : LinksFit s.cfg.width s.nodes.left
  rightFits : LinksFit s.cfg.width s.nodes.right
  parentFits : LinksFit s.cfg.width s.nodes.parent
  rootFits : fitsIdx s.cfg.width s.nodes.root = true
  curFits : fitsIdx s.cfg.width s.cur = true
  codeBound : ∀ b : Byte, (getCode s.code b).length ≤ 255
  nbqBound : s.nbq.toNat ≤ 8
  bufLength : s.buf.length = s.cfg.chunk
  noLines : ∀ f w, some (HostEvent.line f w) ∉ s.inputs

/-- What holds in the course of an operation after INIT; `copied` says that `huff` has been copied to STATUS (R30). -/
structure Running (copied : Prop) (s : State) : Prop extends DataOk s where
  isBusy : s.status.busy = true
  notDone : s.status.done = false
  noErr : s.status.err = false
  noErrcode : s.errcode = 0#3
  opKnown : s.op ≠ 0#2 ∧ s.op ≠ 3#2
  isOpen : s.streamsOpen = true
  huffCopied : copied → s.status.huff = s.huff
  dstlenExact : s.dst.length < 2 ^ 64 → s.dstlen.toNat = s.dst.length

theorem Inv.dataOk {s : State} (h : Inv s) : DataOk s := { h with }

theorem DataOk.storeTable {s : State} {n : NodeTable} (h : DataOk s) (hn : TableOk s.cfg.width n) :
    DataOk { s with nodes := n } :=
  { h with
    nextFreeRange := hn.nextFreeRange, leftFits := hn.leftFits, rightFits := hn.rightFits
    parentFits := hn.parentFits, rootFits := hn.rootFits }

theorem phase_ne_of_range {p : BitVec 5} (hp : 1 ≤ p.toNat ∧ p.toNat ≤ 16) : p ≠ 17#5 ∧ p ≠ 18#5 :=
  ⟨by rintro rfl; exact absurd hp.2 (by decide), by rintro rfl; exact absurd hp.2 (by decide)⟩

theorem running_of_inv {copied : Prop} {s : State} (h : Inv s) (hp : 2 ≤ s.phase.toNat ∧ s.phase.toNat ≤ 16)
    (hcopied : copied → (4 ≤ s.phase.toNat ∧ s.phase.toNat ≤ 10) ∨ 13 ≤ s.phase.toNat) : Running copied s := by
  obtain ⟨h17, h18⟩ := phase_ne_of_range ⟨by omega, hp.2⟩
  have hbusy : s.status.busy = true := h.busyIff.2 ⟨by omega, hp.2⟩
  refine { h.dataOk with
    isBusy := hbusy
    notDone := Bool.eq_false_iff.2 fun hd => h17 (h.doneIff.1 hd)
    noErr := Bool.eq_false_iff.2 fun he => h18 (h.errIff.1 he)
    noErrcode := not_not.1 fun he => h18 (h.errcodeIff.1 he)
    opKnown := ⟨h.opWhileBusy hbusy, h.opLegal⟩
    isOpen := h.openIff.2 hp
    huffCopied := fun hc => h.huffCopy ?_
    dstlenExact := fun hlt => (h.dstlenCounts hlt).resolve_right ?_ }
  · have := hcopied hc
    omega
  · rintro ⟨-, hp1 | ⟨hp18, -⟩⟩
    · rw [hp1] at hp
      exact absurd hp.1 (by decide)
    · exact h18 hp18

/-- A running operation that hands on to the phase of `i` meets the invariant (R182). -/
theorem inv_setPc_of_running {copied : Prop} {s : State} {i : Instr} (h : Running copied s)
    (hi : 2 ≤ i.phaseCode.toNat ∧ i.phaseCode.toNat ≤ 16)
    (hcopied : (4 ≤ i.phaseCode.toNat ∧ i.phaseCode.toNat ≤ 10) ∨ 13 ≤ i.phaseCode.toNat → copied) :
    Inv (setPc i s) := by
  obtain ⟨h17, h18⟩ := phase_ne_of_range ⟨by omega, hi.2⟩
  exact { h.toDataOk with
    phaseLegal := by rw [setPc_phase]; omega
    busyIff := iff_of_true h.isBusy ⟨by rw [setPc_phase]; omega, hi.2⟩
    doneIff := iff_of_false (by simp [h.notDone]) h17
    errIff := iff_of_false (by simp [h.noErr]) h18
    errcodeIff := iff_of_false (by simp [h.noErrcode]) h18
    errcodeLegal := by simp [h.noErrcode]
    opLegal := h.opKnown.2
    opWhileBusy := fun _ => h.opKnown.1
    huffCopy := fun hp => h.huffCopied (hcopied (hp.imp_right And.left))
    dstlenCounts := fun hlt => .inl (h.dstlenExact hlt)
    deliveredAtRest := fun hrest => absurd h.isBusy (by simp at hrest; simp [hrest])
    openIff := iff_of_true h.isOpen hi }

/-- An error meets the invariant (R213). -/
theorem inv_takeError {s : State} (x : ErrCode) (h : DataOk s) (hop : s.op ≠ 3#2)
    (hdst : s.dst.length < 2 ^ 64 → s.dstlen.toNat = s.dst.length ∨ (s.dst = [] ∧ errNumber x = 5#3)) :
    Inv (takeError x s) :=
  { h with
    phaseLegal := by simp
    busyIff := by simp [Status.failed]
    doneIff := by simp [Status.failed]
    errIff := by simp [Status.failed]
    errcodeIff := by cases x <;> simp [errNumber]
    errcodeLegal := by cases x <;> simp [errNumber]
    opLegal := hop
    opWhileBusy := fun hb => by simp [Status.failed] at hb
    huffCopy := fun hp => by simp at hp
    dstlenCounts := fun hlt => (hdst hlt).imp_right fun ⟨hnil, hcode⟩ => ⟨hnil, .inr ⟨rfl, hcode⟩⟩
    deliveredBound := by simp
    deliveredAtRest := fun _ => by simp
    openIff := by simp }

theorem Running.inv_takeError {copied : Prop} {s : State} (x : ErrCode) (h : Running copied s) :
    Inv (takeError x s) :=
  Machine.inv_takeError x h.toDataOk h.opKnown.2 fun hlt => .inl (h.dstlenExact hlt)

/-! ### What each update keeps of a running operation -/

section Updates
variable {copied : Prop} {s : State} (h : Running copied s)
include h

theorem Running.popAnswer : Running copied (popAnswer s) := { h with }

theorem Running.setPos (p : Nat) : Running copied (setPos p s) := { h with }

theorem Running.appendBytes (v : List Byte) : Running copied (appendBytes v s) :=
  { h with
    dstWf := wf_extend h.dstWf v
    deliveredBound := by
      have := h.deliveredBound
      simp
      omega
    dstlenExact := fun hlt => by
      rw [appendBytes_dst, extend_length] at hlt ⊢
      rw [appendBytes_dstlen, h.dstlenExact (by omega), narrowSize_toNat hlt] }

theorem Running.readChunk (pos : Nat) : Running copied (readChunk pos s) :=
  { h with bufLength := memRead_length _ _ _ }

theorem Running.fetchByte (b : Byte) : Running copied (fetchByte b s) :=
  { h with nbqBound := (by decide : (8#4).toNat ≤ 8) }

theorem Running.dropBit (hbits : s.nbq ≠ 0#4) : Running copied (dropBit s) :=
  { h with
    nbqBound := by
      have := h.nbqBound
      rw [dropBit_nbq]
      bv_omega }

theorem Running.stand {c : Int} (hc : fitsIdx s.cfg.width c = true) : Running copied { s with cur := c } :=
  { h with curFits := hc }

theorem Running.storeTable {n : NodeTable} (hn : TableOk s.cfg.width n) : Running copied { s with nodes := n } :=
  { h.toDataOk.storeTable hn, h with }

theorem Running.tableOk : TableOk s.cfg.width s.nodes := { h with }

theorem Running.loadTree (pos : Nat) : Running copied (loadTree pos s) :=
  h.storeTable
    { nextFreeRange := h.nextFreeRange
      leftFits := linksFit_loadedLinks _ _ s
      rightFits := linksFit_loadedLinks _ _ s
      parentFits := linksFit_loadedLinks _ _ s
      rootFits := fitsIdx_readField _ _ s }

theorem Running.setHuff (b : Bool) : Running True (setHuff b s) := { h with huffCopied := fun _ => rfl }

end Updates

/-! ### The rules of the operations over a running operation -/

theorem running_appendRule (copied : Prop) : AppendRule (Running copied) Inv where
  append v _ h := h.popAnswer.appendBytes v
  appendFails _ h := h.popAnswer.inv_takeError .ioFailure

theorem running_freqRule (copied : Prop) : FreqRule (Running copied) Inv where
  read pos _ h := h.readChunk pos
  count _ h := h.storeTable { h.tableOk with }
  overflow _ h := h.inv_takeError .countOverflow

theorem running_packRule (copied : Prop) : PackRule (Running copied) Inv where
  toAppendRule := running_appendRule copied
  position p _ h := h.setPos p
  shift _ _ h := { h with }
  clear _ h := { h with }

theorem running_copyEncRule (copied : Prop) : CopyEncRule (Running copied) Inv where
  toAppendRule := running_appendRule copied
  read pos _ h := h.readChunk pos

theorem running_copyDecRule (copied : Prop) : CopyDecRule (Running copied) Inv where
  toAppendRule := running_appendRule copied
  position p _ h := h.setPos p

theorem running_unpackRule (copied : Prop) : UnpackRule (Running copied) Inv where
  toAppendRule := running_appendRule copied
  start _ h := { h with curFits := h.rootFits, nbqBound := (by decide : (0#4).toNat ≤ 8) }
  fetch b _ h := h.fetchByte b
  takeBit _ h hbits := h.dropBit hbits
  stand _ _ h hc := h.stand (fitsIdx_of_isNodeId _ hc)
  toRoot _ h := h.stand h.rootFits
  starved _ h := h.inv_takeError .insufficientData
  inconsistent _ h := h.inv_takeError .structuralInconsistency

end Sys2Proof.Machine

namespace Sys2Proof.Machine

/-! ### Every phase operation keeps the invariant -/

@[simp] theorem phaseCode_init : Instr.init.phaseCode = 1#5 := rfl
@[simp] theorem phaseCode_done : Instr.done.phaseCode = 17#5 := rfl

theorem dataOk_newDestination {s : State} (h : DataOk s) : DataOk (newDestination s) :=
  { h with dstWf := wf_nil, deliveredBound := Nat.le_refl 0 }

theorem dataOk_startOperation {s : State} (h : DataOk s) : DataOk (startOperation s) :=
  { h.storeTable (tableOk_initialNodes s.cfg.width) with }

theorem inv_execInit {s t : State} (h : Inv s) (hphase : s.phase = 1#5) (ht : exec .init s = .next t) : Inv t := by
  have hbusy : s.status.busy = true := h.busyIff.2 (by simp [hphase])
  have hnew : DataOk (newDestination (popAnswer s)) := dataOk_newDestination { h.dataOk with }
  rcases execInit_cases ht with rfl | rfl
  · have hrun : Running False (startOperation (newDestination (popAnswer s))) :=
      { dataOk_startOperation hnew with
        isBusy := by simp [hbusy]
        notDone := by
          rw [startOperation_status]
          exact Bool.eq_false_iff.2 fun hd => by simpa [hphase] using h.doneIff.1 hd
        noErr := by
          rw [startOperation_status]
          exact Bool.eq_false_iff.2 fun he => by simpa [hphase] using h.errIff.1 he
        noErrcode := by
          rw [startOperation_errcode]
          exact not_not.1 fun he => by simpa [hphase] using h.errcodeIff.1 he
        opKnown := by simp [h.opWhileBusy hbusy, h.opLegal]
        isOpen := by simp
        huffCopied := False.elim
        dstlenExact := by simp }
    refine inv_setPc_of_running hrun ?_ ?_
    · split <;> decide
    · split <;> decide
  · exact inv_takeError _ hnew h.opLegal fun _ => .inr ⟨rfl, rfl⟩

/-- FINISH, the one exit that is no error (R196). -/
theorem inv_execFinish {s t : State} (h : Running True s) (ht : exec .finish s = .next t) : Inv t := by
  rcases execFinish_cases ht with rfl | rfl
  · exact { h.toDataOk with
      phaseLegal := by simp
      busyIff := by simp [Status.finished]
      doneIff := by simp [Status.finished]
      errIff := by simp [Status.finished, h.noErr]
      errcodeIff := by simp [h.noErrcode]
      errcodeLegal := by simp [h.noErrcode]
      opLegal := h.opKnown.2
      opWhileBusy := fun _ => h.opKnown.1
      huffCopy := fun _ => h.huffCopied trivial
      dstlenCounts := fun hlt => .inl (h.dstlenExact hlt)
      deliveredBound := Nat.le_refl _
      deliveredAtRest := fun _ => rfl
      openIff := by simp }
  · exact h.popAnswer.inv_takeError _

theorem inv_exec_of_phase {i : Instr} {s t : State} (h : Inv s) (hformat : i.format = .phase)
    (hphase : s.phase.toNat = encode i) (ht : exec i s = .next t) : Inv t := by
  have running : ∀ copied : Prop, 2 ≤ encode i ∧ encode i ≤ 16 →
      (copied → (4 ≤ encode i ∧ encode i ≤ 10) ∨ 13 ≤ encode i) → Running copied s := fun copied hp hcopied =>
    running_of_inv h (by omega) (by simpa only [hphase] using hcopied)
  have handsOn : ∀ {j : Instr} {copied : Prop} (hj : 2 ≤ j.phaseCode.toNat ∧ j.phaseCode.toNat ≤ 16)
      (hc : (4 ≤ j.phaseCode.toNat ∧ j.phaseCode.toNat ≤ 10) ∨ 13 ≤ j.phaseCode.toNat → copied) (u : State),
      Running copied u → Inv (setPc j u) := fun hj hc u hu => inv_setPc_of_running hu hj hc
  cases i with
  | archive | unarchive | hdrMagic | hdrFlagHuff | hdrFlagVerb | nodeTerminator | nodeSymbol | nodeInternal =>
    cases hformat
  | idle | done | error =>
    cases ht
    exact h
  | init => exact inv_execInit h (BitVec.eq_of_toNat_eq hphase) ht
  | wrMagic =>
    exact execWrMagic_leads (running_appendRule False) (handsOn (by decide) (by decide)) ht
      (running False (by decide) False.elim)
  | decideMode =>
    rw [execDecideMode_eq] at ht
    cases ht
    exact handsOn (by decide) (fun _ => trivial) _ ((running False (by decide) False.elim).setHuff _)
  | wrFlag =>
    refine execWrFlag_leads (running_appendRule True) ?_ ht (running True (by decide) fun _ => by decide)
    rintro j u hu (rfl | rfl)
    · exact handsOn (by decide) (fun _ => trivial) u hu
    · exact handsOn (by decide) (fun _ => trivial) u hu
  | freq =>
    exact execFreq_leads (running_freqRule True) (handsOn (by decide) fun _ => trivial) ht
      (running True (by decide) fun _ => by decide)
  | build =>
    have hrun := running True (by decide) fun _ => by decide
    have hstored := hrun.storeTable (tableOk_buildLoop hrun.tableOk)
    obtain ⟨-, rfl | ⟨x, rfl⟩⟩ := execBuild_cases ht
    · exact handsOn (by decide) (fun _ => trivial) _ hstored
    · exact hstored.inv_takeError x
  | serialize =>
    exact execSerialize_leads (running_appendRule True) (handsOn (by decide) fun _ => trivial) ht
      (running True (by decide) fun _ => by decide)
  | codegen =>
    obtain ⟨cs, hcodes, rfl⟩ := execCodegen_cases ht
    exact handsOn (copied := True) (by decide) (fun _ => trivial) _
      { running True (by decide) fun _ => by decide with codeBound := getCode_codegen_length hcodes }
  | pack =>
    exact execPack_leads (running_packRule True) (handsOn (by decide) fun _ => trivial) ht
      (running True (by decide) fun _ => by decide)
  | copyEnc =>
    exact execCopyEnc_leads (running_copyEncRule True) (handsOn (by decide) fun _ => trivial) ht
      (running True (by decide) fun _ => by decide)
  | rdMagic =>
    have hrun := running False (by decide) False.elim
    rcases execRdMagic_cases ht with rfl | rfl | rfl
    · exact handsOn (by decide) (by decide) _ (hrun.setPos 4)
    · exact hrun.inv_takeError _
    · exact (hrun.setPos 4).inv_takeError _
  | rdFlag =>
    have hrun := running False (by decide) False.elim
    rcases execRdFlag_cases ht with ⟨b, rfl⟩ | rfl
    · exact handsOn (by cases b <;> decide) (fun _ => trivial) _ ((hrun.setPos 5).setHuff b)
    · exact hrun.inv_takeError _
  | deserialize =>
    have hrun := running True (by decide) fun _ => by decide
    rcases execDeserialize_cases ht with rfl | rfl
    · exact handsOn (by decide) (fun _ => trivial) _ ((hrun.loadTree _).setPos _)
    · exact hrun.inv_takeError _
  | unpack =>
    exact execUnpack_leads (running_unpackRule True) (handsOn (by decide) fun _ => trivial) ht
      (running True (by decide) fun _ => by decide)
  | copyDec =>
    exact execCopyDec_leads (running_copyDecRule True) (handsOn (by decide) fun _ => trivial) ht
      (running True (by decide) fun _ => by decide)
  | finish => exact inv_execFinish (running True (by decide) fun _ => by decide) ht

/-- What PHASE decodes to is a phase instruction with that code (R82). -/
theorem format_and_code_of_decode_phase {p : BitVec 5} {i : Instr} (h : decode .phase p.toNat = .instr i) :
    i.format = .phase ∧ p.toNat = encode i := by
  rw [decode, if_neg (by have := p.isLt; simp only [Format.width]; omega)] at h
  dsimp only [decodePhase] at h
  split at h <;> cases h <;> exact ⟨rfl, by assumption⟩

/-- Everything the sequencer's turn can do (R31, R182). -/
theorem runPhase_cases {s t : State} (h : runPhase s = .next t) :
    ∃ i : Instr, i.format = .phase ∧ s.phase.toNat = encode i ∧ exec i s = .next t := by
  unfold runPhase at h
  split at h
  next i hdec =>
    obtain ⟨hformat, hcode⟩ := format_and_code_of_decode_phase hdec
    exact ⟨i, hformat, hcode, h⟩
  · cases h

theorem inv_runPhase {s t : State} (h : Inv s) (ht : runPhase s = .next t) : Inv t := by
  obtain ⟨i, hformat, hcode, hexec⟩ := runPhase_cases ht
  exact inv_exec_of_phase h hformat hcode hexec

/-! ### Every host event keeps the invariant -/

theorem inv_acceptCommand {s : State} {op : BitVec 2} (h : Inv s) (h0 : op ≠ 0#2) (h3 : op ≠ 3#2) :
    Inv (acceptCommand op s) := by
  by_cases hbusy : s.status.busy = true
  · rwa [acceptCommand_of_busy op hbusy]
  · have hclosed : s.streamsOpen = false := Bool.eq_false_iff.2 fun ho => by
      have := h.openIff.1 ho
      exact hbusy (h.busyIff.2 ⟨by omega, this.2⟩)
    rw [acceptCommand, if_neg hbusy]
    exact { h with
      phaseLegal := by simp
      busyIff := by simp [Status.accepted]
      doneIff := by simp [Status.accepted]
      errIff := by simp [Status.accepted]
      errcodeIff := by simp
      errcodeLegal := by simp
      opLegal := h3
      opWhileBusy := fun _ => h0
      huffCopy := by simp
      dstlenCounts := fun hlt => (h.dstlenCounts hlt).imp_right fun hnil => ⟨hnil.1, .inl rfl⟩
      deliveredAtRest := fun hrest => absurd hrest (by simp [Status.accepted])
      openIff := by simp [hclosed] }

theorem writeCmd_cases {w : BitVec 8} {s t : State} (h : writeCmd w s = .next t) :
    t = s ∨ t = acceptCommand 1#2 s ∨ t = acceptCommand 2#2 s := by
  unfold writeCmd at h
  split at h
  next i hdec =>
    have hcmd : i = .archive ∨ i = .unarchive := by
      rw [decode, if_neg (by have := w.isLt; simp only [Format.width]; omega)] at hdec
      dsimp only [decodeCmdw] at hdec
      split at hdec
      · exact .inl (Decoded.instr.inj hdec).symm
      · split at hdec
        · exact .inr (Decoded.instr.inj hdec).symm
        · cases hdec
    rcases hcmd with rfl | rfl
    · exact .inr (.inl (Host.Outcome.next.inj h).symm)
    · exact .inr (.inr (Host.Outcome.next.inj h).symm)
  · exact .inl (Host.Outcome.next.inj h).symm

theorem inv_writeReg {r : CtrlReg} {v : Size} {s t : State} (h : Inv s) (ht : writeReg r v s = .next t) : Inv t := by
  cases r with
  | cmd =>
    rcases writeCmd_cases ht with rfl | rfl | rfl
    · exact h
    · exact inv_acceptCommand h (by decide) (by decide)
    · exact inv_acceptCommand h (by decide) (by decide)
  | srclen =>
    obtain rfl := Host.Outcome.next.inj ht
    unfold writeSrclen
    split
    · exact h
    · exact { h with }
  | status | errcode | phase | srcpos | dstlen =>
    obtain rfl := Host.Outcome.next.inj ht
    exact h

theorem inv_latch {s : State} (h : Inv s) (v : Option Size) : Inv (latch v s) := { h with }

theorem inv_noteArrived {s : State} (h : Inv s) : Inv (noteArrived s) := by
  rw [noteArrived_frame]
  exact { h with }

theorem inv_bindSource {bytes : List Byte} {s t : State} (h : Inv s) (ht : bindSource bytes s = .next t) : Inv t := by
  unfold bindSource at ht
  split at ht
  · cases ht
  · obtain rfl := Host.Outcome.next.inj ht
    exact { h with srcWf := wf_ofBytes bytes }

/-! ### Hardware reset -/

theorem dst_wf_afterPhase {s : State} (h : Inv s) : Memory.wf (afterPhase s).dst = true := by
  unfold afterPhase
  split
  next t ht => exact (inv_runPhase h ht).dstWf
  · exact h.dstWf
  · exact h.dstWf

theorem wf_visibleDst {s : State} (h : Inv s) : Memory.wf (visibleDst s) = true := by
  unfold visibleDst
  split
  · exact wf_firstBytes (dst_wf_afterPhase h) _
  · split
    · exact h.leftoverWf
    · exact wf_firstBytes h.dstWf _

theorem wf_abandonedDst {s : State} (h : Inv s) (f : FreeItem → Nat) : Memory.wf (abandonedDst f s) = true := by
  unfold abandonedDst
  split
  · exact wf_firstBytes (dst_wf_afterPhase h) _
  · exact wf_visibleDst h

theorem fitsIdx_free (w : IdxWidth) (k : Nat) : fitsIdx w (signedOf w (k % 2 ^ (8 * w.bytes))) = true :=
  fitsIdx_signedOf w (Nat.mod_lt _ (Nat.two_pow_pos _))

theorem tableOk_unspecifiedNodes (w : IdxWidth) (f : FreeItem → Nat) : TableOk w (unspecifiedNodes w f) where
  nextFreeRange := by
    have hlt := Nat.mod_lt (f .nextFree) (by decide : 257 > 0)
    simp only [unspecifiedNodes, BitVec.toNat_ofNat]
    omega
  leftFits := linksFit_tabulate fun _ => fitsIdx_free w _
  rightFits := linksFit_tabulate fun _ => fitsIdx_free w _
  parentFits := linksFit_tabulate fun _ => fitsIdx_free w _
  rootFits := fitsIdx_free w _

theorem getCode_unspecifiedCodes_length (f : FreeItem → Nat) (b : Byte) :
    (getCode (unspecifiedCodes f) b).length ≤ 255 := by
  rw [unspecifiedCodes, getCode_tabulate, List.length_map, List.length_range]
  omega

theorem dataOk_clearControl {s : State} (h : DataOk s) : DataOk (clearControl s) := { h with }

theorem dataOk_unspecified {s : State} (f : FreeItem → Nat) (h : DataOk s) : DataOk (unspecified f s) :=
  { h.storeTable (tableOk_unspecifiedNodes s.cfg.width f) with
    curFits := fitsIdx_free _ _
    codeBound := getCode_unspecifiedCodes_length f
    nbqBound := by
      have hlt := Nat.mod_lt (f .nbq) (by decide : 9 > 0)
      simp only [unspecified, BitVec.toNat_ofNat]
      omega
    bufLength := by simp [unspecified] }

theorem dataOk_hardReset {s : State} (h : Inv s) : DataOk (hardReset s) :=
  { dataOk_newDestination (dataOk_unspecified (Config.freeNat s.freeCount) (dataOk_clearControl h.dataOk)) with
    leftoverWf := wf_abandonedDst h _ }

@[simp] theorem hardReset_phase (s : State) : (hardReset s).phase = 0#5 := rfl
@[simp] theorem hardReset_op (s : State) : (hardReset s).op = 0#2 := rfl
@[simp] theorem hardReset_status (s : State) :
    (hardReset s).status = { busy := false, done := false, err := false, huff := false } := rfl
@[simp] theorem hardReset_errcode (s : State) : (hardReset s).errcode = 0#3 := rfl
@[simp] theorem hardReset_dstlen (s : State) : (hardReset s).dstlen = 0#64 := rfl
@[simp] theorem hardReset_dst (s : State) : (hardReset s).dst = [] := rfl
@[simp] theorem hardReset_delivered (s : State) : (hardReset s).delivered = 0 := rfl
@[simp] theorem hardReset_streamsOpen (s : State) : (hardReset s).streamsOpen = false := rfl

theorem inv_hardReset {s : State} (h : Inv s) : Inv (hardReset s) :=
  { dataOk_hardReset h with
    phaseLegal := by simp
    busyIff := by simp
    doneIff := by simp
    errIff := by simp
    errcodeIff := by simp
    errcodeLegal := by simp
    opLegal := by simp
    opWhileBusy := by simp
    huffCopy := by simp
    dstlenCounts := by simp
    deliveredAtRest := by simp
    openIff := by simp }

/-! ### Every step keeps the invariant -/

/-- A line is the one event the invariant excludes (log 7). -/
theorem inv_hostEvent {e : HostEvent} {s t : State} (h : Inv s) (hline : ∀ f w, e ≠ .line f w)
    (ht : hostEvent e s = .next t) : Inv t := by
  cases e with
  | write r v => exact inv_writeReg h ht
  | read r =>
    obtain rfl := Host.Outcome.next.inj ht
    exact inv_latch h _
  | readDst a =>
    obtain rfl := Host.Outcome.next.inj ht
    exact inv_latch (inv_noteArrived h) _
  | bindSource bytes => exact inv_bindSource h ht
  | hardReset =>
    obtain rfl := Host.Outcome.next.inj ht
    exact inv_hardReset h
  | line f w => exact absurd rfl (hline f w)

theorem inv_of_rest {s : State} {e : Option HostEvent} {rest : List (Option HostEvent)} (h : Inv s)
    (hin : s.inputs = e :: rest) : Inv { s with inputs := rest } :=
  { h with noLines := fun f w hmem => h.noLines f w (hin ▸ List.mem_cons_of_mem e hmem) }

/-- Settles O55: the sequencer's turn by its operations, a host event by its kind. -/
theorem stepKeepsTheInvariant : Obligations.StepKeepsTheInvariant := by
  intro s t h ht
  match hin : s.inputs with
  | [] => exact inv_runPhase h (step_of_no_inputs hin ▸ ht)
  | none :: rest =>
    have hturn : step s = runPhase { s with inputs := rest } := by simp only [step, hin]
    exact inv_runPhase (inv_of_rest h hin) (hturn ▸ ht)
  | some e :: rest =>
    refine inv_hostEvent (inv_of_rest h hin) (fun f w he => h.noLines f w ?_) (step_of_event hin ▸ ht)
    rw [hin, he]
    exact List.mem_cons_self

end Sys2Proof.Machine

/-! SUPPORT. Proofs for the family of spec/20_memory.md: the destination grows at its end (O18) and is delivered at every
exit (O14), the source is never written (O19), one append (O20). What any operation but INIT can do is proved once, as a
rule over its elementary updates; O14, O18 and O19 are instances of that rule. -/

namespace Sys2Proof.Machine

/-! ### The rule of every operation but INIT -/

/-- `t` is `s` but for the registers inside the block, PHASE, STATUS.HUFF, SRCPOS and the answers used up. -/
def InternalFrame (s t : State) : Prop :=
  t = { s with
    nodes := t.nodes, code := t.code, acc := t.acc, nacc := t.nacc, bq := t.bq, nbq := t.nbq, cur := t.cur,
    huff := t.huff, phase := t.phase, status := { s.status with huff := t.status.huff }, srcpos := t.srcpos,
    buf := t.buf, answers := t.answers }

/-- What the elementary updates keep (`P`), and where an operation may end (`Q`): after any of them, in an error, at the
acceptance of a command, or by the flush of FINISH. -/
structure OperationRule (P Q : State → Prop) : Prop where
  keepsInternal : ∀ {s u}, P s → InternalFrame s u → P u
  keepsAppend : ∀ {s} v, P s → P (appendBytes v s)
  ends : ∀ {s}, P s → Q s
  fails : ∀ {s} x, P s → Q (takeError x s)
  accepts : ∀ {s} op, P s → Q (acceptCommand op s)
  finishes : ∀ {s}, P s → Q (setPc .done { releaseStreams s with status := s.status.finished })

namespace OperationRule

variable {P Q : State → Prop} (h : OperationRule P Q) {s t : State}
include h

theorem keepsPosition (p : Nat) (hs : P s) : P (setPos p s) := h.keepsInternal hs rfl

theorem toAppendRule : AppendRule P Q where
  append v _ hs := h.keepsAppend v (h.keepsInternal hs rfl)
  appendFails _ hs := h.fails _ (h.keepsInternal hs rfl)

theorem toFreqRule : FreqRule P Q where
  read _ _ hs := h.keepsInternal hs rfl
  count _ hs := h.keepsInternal hs rfl
  overflow _ hs := h.fails _ hs

theorem toPackRule : PackRule P Q where
  toAppendRule := h.toAppendRule
  position p _ := h.keepsPosition p
  shift _ _ hs := h.keepsInternal hs rfl
  clear _ hs := h.keepsInternal hs rfl

theorem toCopyEncRule : CopyEncRule P Q where
  toAppendRule := h.toAppendRule
  read _ _ hs := h.keepsInternal hs rfl

theorem toCopyDecRule : CopyDecRule P Q where
  toAppendRule := h.toAppendRule
  position p _ := h.keepsPosition p

theorem toUnpackRule : UnpackRule P Q where
  toAppendRule := h.toAppendRule
  start _ hs := h.keepsInternal hs rfl
  fetch _ _ hs := h.keepsInternal hs rfl
  takeBit _ hs _ := h.keepsInternal hs rfl
  stand _ _ hs _ := h.keepsInternal hs rfl
  toRoot _ hs := h.keepsInternal hs rfl
  starved _ hs := h.fails _ hs
  inconsistent _ hs := h.fails _ hs

theorem handsOn (i : Instr) (hs : P s) : Q (setPc i s) := h.ends (h.keepsInternal hs rfl)

theorem of_toOutcome {r : Flow} (hr : r.Ends P Q) (ht : r.toOutcome = .next t) : Q t := by
  cases r with
  | go s =>
    cases ht
    exact h.ends hr
  | raised s =>
    cases ht
    exact hr

theorem testMagic_ends (m : List Byte) (hs : P s) : (testMagic m s).Ends P Q := by
  unfold testMagic
  split
  · exact h.keepsInternal hs rfl
  · exact h.fails _ hs

theorem keepsLoadTree (pos : Nat) (hs : P s) : P (loadTree pos s) :=
  h.keepsInternal hs (by simp only [InternalFrame, loadTree])

theorem dispatchesFlag (b : Bool) (hs : P s) : Q (dispatchFlag b s) := h.handsOn _ (h.keepsInternal hs rfl)

/-- Every operation but INIT leads from `P` to `Q`. -/
theorem exec_leads {i : Instr} (hinit : i ≠ .init) (ht : exec i s = .next t) (hs : P s) : Q t := by
  cases i with
  | init => exact absurd rfl hinit
  | archive | unarchive =>
    cases ht
    exact h.accepts _ hs
  | idle | done | error =>
    cases ht
    exact h.ends hs
  | wrMagic => exact execWrMagic_leads h.toAppendRule (fun _ => h.handsOn _) ht hs
  | decideMode =>
    cases ht
    exact h.handsOn _ (h.keepsInternal hs rfl)
  | wrFlag => exact execWrFlag_leads h.toAppendRule (fun _ _ hu _ => h.handsOn _ hu) ht hs
  | freq => exact execFreq_leads h.toFreqRule (fun _ => h.handsOn _) ht hs
  | build =>
    obtain ⟨-, rfl | ⟨x, rfl⟩⟩ := execBuild_cases ht
    · exact h.handsOn _ (h.keepsInternal hs rfl)
    · exact h.fails x (h.keepsInternal hs rfl)
  | serialize => exact execSerialize_leads h.toAppendRule (fun _ => h.handsOn _) ht hs
  | codegen =>
    obtain ⟨cs, -, rfl⟩ := execCodegen_cases ht
    exact h.handsOn _ (h.keepsInternal hs rfl)
  | pack => exact execPack_leads h.toPackRule (fun _ => h.handsOn _) ht hs
  | copyEnc => exact execCopyEnc_leads h.toCopyEncRule (fun _ => h.handsOn _) ht hs
  | rdMagic =>
    rcases execRdMagic_cases ht with rfl | rfl | rfl
    · exact h.handsOn _ (h.keepsPosition 4 hs)
    · exact h.fails _ hs
    · exact h.fails _ (h.keepsPosition 4 hs)
  | rdFlag =>
    rcases execRdFlag_cases ht with ⟨b, rfl⟩ | rfl
    · exact h.dispatchesFlag b (h.keepsPosition 5 hs)
    · exact h.fails _ hs
  | deserialize =>
    rcases execDeserialize_cases ht with rfl | rfl
    · exact h.handsOn _ (h.keepsPosition _ (h.keepsLoadTree _ hs))
    · exact h.fails _ hs
  | unpack => exact execUnpack_leads h.toUnpackRule (fun _ => h.handsOn _) ht hs
  | copyDec => exact execCopyDec_leads h.toCopyDecRule (fun _ => h.handsOn _) ht hs
  | finish =>
    have hpop : P (popAnswer s) := h.keepsInternal hs rfl
    rcases execFinish_cases ht with rfl | rfl
    · exact h.finishes hpop
    · exact h.fails _ hpop
  | hdrMagic m => exact h.of_toOutcome (h.testMagic_ends _ hs) ht
  | hdrFlagHuff | hdrFlagVerb =>
    cases ht
    exact h.dispatchesFlag _ hs
  | nodeTerminator =>
    cases ht
    exact h.handsOn _ hs
  | nodeSymbol sym => exact h.of_toOutcome (emit_ends h.toUnpackRule _ hs) ht
  | nodeInternal slot => exact h.of_toOutcome (descend_ends h.toUnpackRule _ hs) ht

end OperationRule

/-! ### Appends (R56) -/

/-- Settles O20: the two answers of the environment. -/
theorem appendIsAllOrNothing : Obligations.AppendIsAllOrNothing := by
  intro s v
  refine ⟨fun hyes hfits => ⟨_, memWrite_of_answer v hyes, ?_, ?_, rfl⟩,
    fun hno => ⟨_, memWrite_of_no_answer v hno, rfl, rfl, rfl, rfl⟩⟩
  · simp
  · simpa using narrowSize_toNat hfits

/-! ### The destination only grows (R55) -/

/-- The stream `m` is the stream `d` with bytes added at its end. -/
def Extends (d m : Memory) : Prop := ∃ v, m = Memory.extend d v

theorem Extends.refl (d : Memory) : Extends d d := ⟨[], (extend_nil d).symm⟩

theorem Extends.extend {d m : Memory} (h : Extends d m) (v : List Byte) : Extends d (Memory.extend m v) := by
  obtain ⟨w, rfl⟩ := h
  exact ⟨w ++ v, extend_extend d w v⟩

theorem readByte_extend {d : Memory} (hd : Memory.wf d = true) (v : List Byte) {a : Nat} (ha : a < d.length) :
    Memory.readByte (Memory.extend d v) a = Memory.readByte d a := by
  rw [readByte_of_wf (wf_extend hd v), readByte_of_wf hd, bytes_extend, List.getElem?_append_left (by simpa using ha)]

theorem acceptCommand_dst (op : BitVec 2) (s : State) : (acceptCommand op s).dst = s.dst := by
  unfold acceptCommand
  split <;> rfl

theorem extends_rule (d : Memory) : OperationRule (fun t => Extends d t.dst) (fun t => Extends d t.dst) where
  keepsInternal hs hu := by rwa [hu]
  keepsAppend v hs := hs.extend v
  ends hs := hs
  fails _ hs := hs
  accepts op hs := by rwa [acceptCommand_dst]
  finishes hs := hs

/-- The destination after INIT: the new operation's, whether or not it opened (R55, R110). -/
theorem execInit_dst {s t : State} (h : exec .init s = .next t) : t.dst = [] := by
  rcases execInit_cases h with rfl | rfl
  · simp
  · rfl

theorem execInit_dstlen {s t : State} (h : exec .init s = .next t) (hopen : nextAnswer s = true) :
    t.dstlen = 0#64 := by
  simp only [exec, execInit, hopen, if_true, go_endPhase] at h
  cases h
  simp

/-- Settles O18: every elementary update keeps the destination or extends it. -/
theorem destinationOnlyGrowsAtItsEnd : Obligations.DestinationOnlyGrowsAtItsEnd := by
  intro i s t ht
  have hgrows : i ≠ .init → Extends s.dst t.dst := fun hi =>
    (extends_rule s.dst).exec_leads hi ht (Extends.refl s.dst)
  refine ⟨hgrows, fun hi a ha hwf => ?_, ?_⟩
  · obtain ⟨v, hv⟩ := hgrows hi
    rw [hv, readByte_extend hwf v ha]
  · rintro rfl
    exact ⟨execInit_dst ht, execInit_dstlen ht⟩

/-! ### The source is never written (R51, R5 to R7) -/

/-- What belongs to the host and the environment is in `t` as in `s`. -/
structure HostSideKept (s t : State) : Prop where
  src : t.src = s.src
  srclen : t.srclen = s.srclen
  cfg : t.cfg = s.cfg
  inputs : t.inputs = s.inputs
  hostData : t.hostData = s.hostData

theorem HostSideKept.trans {s t u : State} (h : HostSideKept s t) (h' : HostSideKept t u) : HostSideKept s u where
  src := h'.src.trans h.src
  srclen := h'.srclen.trans h.srclen
  cfg := h'.cfg.trans h.cfg
  inputs := h'.inputs.trans h.inputs
  hostData := h'.hostData.trans h.hostData

theorem hostSideKept_acceptCommand (op : BitVec 2) (s : State) : HostSideKept s (acceptCommand op s) := by
  unfold acceptCommand
  split <;> exact ⟨rfl, rfl, rfl, rfl, rfl⟩

theorem hostSideKept_of_internalFrame {s u : State} (h : InternalFrame s u) : HostSideKept s u := by
  rw [h]
  exact ⟨rfl, rfl, rfl, rfl, rfl⟩

theorem hostSideKept_rule (s : State) : OperationRule (HostSideKept s) (HostSideKept s) where
  keepsInternal ht hu := ht.trans (hostSideKept_of_internalFrame hu)
  keepsAppend _ ht := { ht with }
  ends ht := ht
  fails _ ht := { ht with }
  accepts op ht := ht.trans (hostSideKept_acceptCommand op _)
  finishes ht := { ht with }

theorem hostSideKept_exec {i : Instr} {s t : State} (ht : exec i s = .next t) : HostSideKept s t := by
  by_cases hi : i = .init
  · subst hi
    rcases execInit_cases ht with rfl | rfl <;> constructor <;> simp
  · exact (hostSideKept_rule s).exec_leads hi ht ⟨rfl, rfl, rfl, rfl, rfl⟩

/-- Settles O19: no elementary update writes the host's side, and a read depends on the source and SRCLEN alone. -/
theorem sourceAndParametersAreNeverWritten : Obligations.SourceAndParametersAreNeverWritten := by
  intro i s t ht
  obtain ⟨hsrc, hlen, hcfg, hinputs, hdata⟩ := hostSideKept_exec ht
  exact ⟨hsrc, hlen, hcfg, hinputs, hdata, memRead_congr hsrc hlen⟩

/-! ### Every exit flushes and releases (R57) -/

/-- The operation is over: everything appended is delivered, the streams are released, PHASE is DONE or ERROR. -/
structure Ended (t : State) : Prop where
  delivered : t.delivered = t.dst.length
  closed : t.streamsOpen = false
  phase : t.phase = 17#5 ∨ t.phase = 18#5

theorem ended_takeError (x : ErrCode) (s : State) : Ended (takeError x s) := ⟨rfl, rfl, .inr rfl⟩

theorem ended_rule : OperationRule (fun s => s.status.busy = true) (fun t => t.status.busy = true ∨ Ended t) where
  keepsInternal hs hu := by rwa [hu]
  keepsAppend _ hs := hs
  ends hs := .inl hs
  fails x _ := .inr (ended_takeError x _)
  accepts op hs := .inl (by rwa [acceptCommand_of_busy op hs])
  finishes _ := .inr ⟨rfl, rfl, .inl rfl⟩

theorem exec_busy_or_ended {i : Instr} {s t : State} (ht : exec i s = .next t) (hs : s.status.busy = true) :
    t.status.busy = true ∨ Ended t := by
  by_cases hi : i = .init
  · subst hi
    rcases execInit_cases ht with rfl | rfl
    · exact .inl (by simpa using hs)
    · exact .inr (ended_takeError _ _)
  · exact ended_rule.exec_leads hi ht hs

/-- After the end of an operation the outside sees the whole destination. -/
theorem Ended.visibleDst {t : State} (h : Ended t) (hrest : t.status.busy = false) : visibleDst t = t.dst := by
  have hidle : t.phase ≠ Instr.idle.phaseCode := by
    rcases h.phase with hp | hp <;> rw [hp] <;> decide
  simp [Machine.visibleDst, hrest, hidle, Memory.firstBytes, h.delivered]

/-- Settles O14: an operation that leaves BUSY has ended by FINISH or an error, and a failed open left no byte. -/
theorem everyExitFlushesAndReleases : Obligations.EveryExitFlushesAndReleases := by
  intro i s t ht hbusy hrest
  have hended : Ended t := (exec_busy_or_ended ht hbusy).resolve_left (by simp [hrest])
  have hseen : visibleDst t = t.dst := hended.visibleDst hrest
  refine ⟨hended.delivered, hended.closed, hended.phase, hseen, ?_⟩
  rintro rfl
  rw [hseen, execInit_dst ht]

end Sys2Proof.Machine

/-! SUPPORT. Proofs for the family of spec/30_encoding.md: the decoder and the encoder (O1, O2), fetched words (O4),
index fields (O30), the header rows (O51, O52), the node rows and UNPACK as a run of them (O41, O42, O43), PACK's
payload (O38). -/

namespace Sys2Proof.Machine

/-! ### The decoder and the encoder (R81, R82, R84, R85, R97) -/

theorem decode_cmdw {w : Nat} (h : w < 256) : decode .cmdw w = decodeCmdw w := if_neg (Nat.not_le.2 h)

theorem decode_phase {w : Nat} (h : w < 32) : decode .phase w = decodePhase w := if_neg (Nat.not_le.2 h)

theorem decode_hdrMagic {w : Nat} (h : w < 2 ^ 32) :
    decode .hdrMagic w = .instr (.hdrMagic (BitVec.ofNat 32 w)) := if_neg (Nat.not_le.2 h)

theorem decode_hdrFlag {w : Nat} (h : w < 256) : decode .hdrFlag w = decodeHdrFlag w := if_neg (Nat.not_le.2 h)

theorem decode_nodeid {w : Nat} (h : w < 512) : decode .nodeid w = decodeNodeid w := if_neg (Nat.not_le.2 h)

theorem fits_of_decode {f : Format} {w : Nat} {i : Instr} (h : decode f w = .instr i) : w < 2 ^ f.width := by
  by_contra hwide
  unfold decode at h
  rw [if_pos (Nat.le_of_not_lt hwide)] at h
  cases h

/-- The instruction `i` is what the table has for the word `w` of format `f`. -/
def Encodes (f : Format) (w : Nat) (i : Instr) : Prop := i.wellFormed = true ∧ i.format = f ∧ encode i = w

theorem encodes_of_decodeCmdw {w : Nat} {i : Instr} (h : decodeCmdw w = .instr i) : Encodes .cmdw w i := by
  unfold decodeCmdw at h
  split at h
  next hw => cases h; exact ⟨rfl, rfl, hw.symm⟩
  · split at h
    next hw => cases h; exact ⟨rfl, rfl, hw.symm⟩
    · cases h

theorem encodes_of_decodePhase {w : Nat} {i : Instr} (h : decodePhase w = .instr i) : Encodes .phase w i := by
  unfold decodePhase at h
  split at h <;> cases h <;> exact ⟨rfl, rfl, rfl⟩

/-- The flag byte is `2·rsv + bit 0`. -/
theorem encodes_of_decodeHdrFlag {w : Nat} {i : Instr} (hw : w < 256) (h : decodeHdrFlag w = .instr i) :
    Encodes .hdrFlag w i := by
  have hrsv : (BitVec.ofNat 7 (w / 2)).toNat = w / 2 := by rw [BitVec.toNat_ofNat]; omega
  unfold decodeHdrFlag at h
  split at h <;> cases h <;> refine ⟨rfl, rfl, ?_⟩
  · rw [encode, hrsv]; omega
  · rw [encode, hrsv]; omega

/-- A node id below 256 is a leaf, and 0 the terminator; the rest are `256 + slot`. -/
theorem encodes_of_decodeNodeid {w : Nat} {i : Instr} (hw : w < 512) (h : decodeNodeid w = .instr i) :
    Encodes .nodeid w i := by
  have hlow : (BitVec.ofNat 8 w).toNat = w % 256 := BitVec.toNat_ofNat _ _
  unfold decodeNodeid at h
  split at h
  next hzero => cases h; exact ⟨rfl, rfl, hzero.symm⟩
  next hzero =>
    split at h <;> cases h
    next hleaf =>
      refine ⟨?_, rfl, by rw [encode, hlow]; omega⟩
      rw [Instr.wellFormed, bne_iff_ne, ne_eq, ← BitVec.toNat_inj, hlow, BitVec.toNat_ofNat]
      omega
    next hinternal => exact ⟨rfl, rfl, by rw [encode, hlow]; omega⟩

theorem encodes_of_decode {f : Format} {w : Nat} {i : Instr} (h : decode f w = .instr i) : Encodes f w i := by
  have hfits := fits_of_decode h
  cases f with
  | cmdw => exact encodes_of_decodeCmdw (decode_cmdw hfits ▸ h)
  | phase => exact encodes_of_decodePhase (decode_phase hfits ▸ h)
  | hdrMagic =>
    rw [decode_hdrMagic hfits] at h
    cases h
    exact ⟨rfl, rfl, by rw [encode, BitVec.toNat_ofNat]; exact Nat.mod_eq_of_lt hfits⟩
  | hdrFlag => exact encodes_of_decodeHdrFlag hfits (decode_hdrFlag hfits ▸ h)
  | nodeid => exact encodes_of_decodeNodeid hfits (decode_nodeid hfits ▸ h)

theorem decode_encode {i : Instr} (h : i.wellFormed = true) : decode i.format (encode i) = .instr i := by
  cases i with
  | hdrMagic m =>
    rw [Instr.format, decode_hdrMagic (Laws.EncodeFits.hdrMagic m)]
    simp [encode]
  | hdrFlagHuff rsv =>
    have hodd : (2 * rsv.toNat + 1) % 2 = 1 ∧ (2 * rsv.toNat + 1) / 2 = rsv.toNat := by omega
    rw [Instr.format, decode_hdrFlag (Laws.EncodeFits.hdrFlagHuff rsv)]
    simp [encode, decodeHdrFlag, hodd]
  | hdrFlagVerb rsv =>
    rw [Instr.format, decode_hdrFlag (Laws.EncodeFits.hdrFlagVerb rsv)]
    simp [encode, decodeHdrFlag]
  | nodeSymbol sym =>
    have hsym : sym.toNat ≠ 0 := by
      simpa [Instr.wellFormed, ← BitVec.toNat_inj] using h
    rw [Instr.format, decode_nodeid (Laws.EncodeFits.nodeSymbol sym)]
    simp [encode, decodeNodeid, hsym, sym.isLt]
  | nodeInternal slot =>
    have hslot : BitVec.ofNat 8 (256 + slot.toNat) = slot := by
      rw [← BitVec.toNat_inj, BitVec.toNat_ofNat]
      have := slot.isLt
      omega
    rw [Instr.format, decode_nodeid (Laws.EncodeFits.nodeInternal slot)]
    simp [encode, decodeNodeid, hslot]
  | _ => rfl

/-- Settles O1: the decoder answers only what the table has, and every table entry is decoded. -/
theorem decodeAndEncodeAgree : Obligations.DecodeAndEncodeAgree := by
  refine fun f w i => ⟨encodes_of_decode, ?_⟩
  rintro ⟨hwf, rfl, rfl⟩
  exact decode_encode hwf

/-- Settles O2: closed words, evaluated by the decoder. -/
theorem specWordsDecodeAsWritten : Obligations.SpecWordsDecodeAsWritten := by
  unfold Obligations.SpecWordsDecodeAsWritten
  decide

/-! ### Fetching a table word (log 6, log 8) -/

theorem decode_of_decodeTableWord {nbits w : Nat} {i : Instr} (h : decodeTableWord nbits w = some i) :
    ∃ f, tableFormat nbits w = some f ∧ decode f w = .instr i := by
  unfold decodeTableWord at h
  split at h
  · cases h
  next f hf =>
    split at h
    next j hdec => exact ⟨f, hf, by rw [hdec, Option.some.inj h]⟩
    · cases h

/-- A command word placed as a write to CMD: the next step runs it. -/
theorem step_placeWord_cmdw {w : Nat} {i : Instr} (h : decode .cmdw w = .instr i) (s : State) :
    step (placeWord .cmdw w s) = exec i s := by
  have hw : w < 256 := fits_of_decode h
  have hlow : (BitVec.ofNat 64 w).toNat % 256 = w := by rw [BitVec.toNat_ofNat]; omega
  exact writeCmd_of_decode (hlow.symm ▸ h) s

/-- A phase code placed in PHASE at the sequencer's turn: the next step runs it. -/
theorem step_placeWord_phase {w : Nat} {i : Instr} (h : decode .phase w = .instr i) (s : State) :
    step (placeWord .phase w s) = exec i { s with phase := i.phaseCode } := by
  obtain ⟨-, -, rfl⟩ := encodes_of_decode h
  have hcode : (BitVec.ofNat 5 (encode i)).toNat = encode i := by
    rw [BitVec.toNat_ofNat]
    exact Nat.mod_eq_of_lt (fits_of_decode h)
  exact runPhase_of_decode (s := { s with phase := i.phaseCode }) (hcode.symm ▸ h)

/-- Settles O4: a command word by a write to CMD, a phase code by PHASE, a selector word by a line. -/
theorem fetchedWordRunsNext : Obligations.FetchedWordRunsNext := by
  intro s nbits w i h
  obtain ⟨f, hf, hdec⟩ := decode_of_decodeTableWord h
  simp only [State.withFetchWord, hf]
  cases f with
  | cmdw => exact .inl (step_placeWord_cmdw hdec s)
  | phase =>
    obtain ⟨-, hformat, -⟩ := encodes_of_decode hdec
    exact .inr ⟨hformat, step_placeWord_phase hdec s⟩
  | hdrMagic | hdrFlag | nodeid => exact .inl (runLine_of_decode hdec s)

end Sys2Proof.Machine

namespace Sys2Proof.Machine

/-! ### Index fields (R87, R88) -/

theorem pow_width (w : IdxWidth) : 2 ^ (8 * w.bytes) = 256 ^ w.bytes := by
  rw [Nat.pow_mul]

theorem patternOf_lt (w : IdxWidth) (v : Int) : patternOf w v < 2 ^ (8 * w.bytes) := by
  have hpos : (0 : Int) < (2 ^ (8 * w.bytes) : Nat) := by positivity
  have := Int.emod_lt_of_pos v hpos
  have := Int.emod_nonneg v hpos.ne'
  unfold patternOf
  omega

/-- The sign extension of the pattern of a value that fits is the value (R88). -/
theorem signedOf_patternOf {w : IdxWidth} {v : Int} (h : fitsIdx w v = true) : signedOf w (patternOf w v) = v := by
  obtain ⟨hlow, hhigh⟩ := fitsIdx_iff.1 h
  obtain ⟨-, hfull⟩ := width_half_range w
  unfold signedOf patternOf
  by_cases hneg : v < 0
  · have hmod : v % (2 ^ (8 * w.bytes) : Nat) = v + (2 ^ (8 * w.bytes) : Nat) := by
      rw [← Int.add_emod_right]
      exact Int.emod_eq_of_lt (by omega) (by omega)
    rw [hmod, if_neg (by omega)]
    omega
  · rw [Int.emod_eq_of_lt (by omega) (by omega), if_pos (by omega)]
    omega

theorem patternOf_signedOf {w : IdxWidth} {p : Nat} (h : p < 2 ^ (8 * w.bytes)) : patternOf w (signedOf w p) = p := by
  unfold signedOf patternOf
  split
  · rw [Int.emod_eq_of_lt (by omega) (by omega), Int.toNat_natCast]
  · rw [Int.sub_emod_right, Int.emod_eq_of_lt (by omega) (by omega), Int.toNat_natCast]

theorem unIdx_idxBytes {w : IdxWidth} (e : Endian) {v : Int} (h : fitsIdx w v = true) :
    unIdx w e (idxBytes w e v) = v := by
  rw [unIdx, idxBytes, inOrder_inOrder, leNat_leBytes, ← pow_width, Nat.mod_eq_of_lt (patternOf_lt w v),
    signedOf_patternOf h]

theorem idxBytes_unIdx {w : IdxWidth} (e : Endian) {bs : List Byte} (h : bs.length = w.bytes) :
    idxBytes w e (unIdx w e bs) = bs := by
  have hlen : (inOrder e bs).length = w.bytes := by rw [inOrder_length, h]
  have hlt : leNat (inOrder e bs) < 2 ^ (8 * w.bytes) := by
    rw [pow_width, ← hlen]
    exact leNat_lt _
  rw [idxBytes, unIdx, patternOf_signedOf hlt, ← hlen, leBytes_leNat, inOrder_inOrder]

theorem leBytes_getElem? {n k : Nat} (h : k < n) (p : Nat) :
    (leBytes n p)[k]? = some (BitVec.ofNat 8 (p / 256 ^ k)) := by
  induction n generalizing k p with
  | zero => omega
  | succ n ih =>
    cases k with
    | zero => simp [leBytes]
    | succ k => rw [leBytes, List.getElem?_cons_succ, ih (by omega), Nat.div_div_eq_div_mul, ← Nat.pow_succ']

/-- A byte below the cut is the same in a value and in the value cut off at `m` bytes. -/
theorem emod_pow_ediv_pow_emod {k m : Nat} (h : k < m) (v : Int) :
    v % 256 ^ m / 256 ^ k % 256 = v / 256 ^ k % 256 := by
  obtain ⟨c, rfl⟩ := Nat.exists_eq_add_of_lt h
  have hcut : v % 256 ^ (k + c + 1) = v + 256 ^ k * (256 * (-256 ^ c * (v / 256 ^ (k + c + 1)))) := by
    rw [Int.emod_def]
    ring
  rw [hcut, Int.add_mul_ediv_left _ _ (by positivity), Int.add_mul_emod_self_left]

/-- Byte `k` of the pattern is byte `k` of the value. -/
theorem byte_of_patternOf {w : IdxWidth} {k : Nat} (h : k < w.bytes) (v : Int) :
    BitVec.ofNat 8 (patternOf w v / 256 ^ k) = BitVec.ofInt 8 (v / 2 ^ (8 * k)) := by
  have hpattern : ((patternOf w v : Nat) : Int) = v % 256 ^ w.bytes := by
    rw [patternOf, pow_width, Int.toNat_of_nonneg (Int.emod_nonneg v (by positivity))]
    norm_cast
  have hbase : (2 : Int) ^ (8 * k) = 256 ^ k := by rw [Int.pow_mul]; rfl
  have hbyte : ((patternOf w v / 256 ^ k : Nat) : Int) % 256 = v / 256 ^ k % 256 := by
    rw [Int.natCast_ediv, hpattern, Int.natCast_pow]
    exact emod_pow_ediv_pow_emod h v
  rw [← BitVec.ofInt_natCast, hbase, ← BitVec.toNat_inj, BitVec.toNat_ofInt, BitVec.toNat_ofInt]
  exact congrArg Int.toNat hbyte

/-- Settles O30: the two round trips, and byte `k` of the pattern. -/
theorem indexFieldsEncodeAndDecode : Obligations.IndexFieldsEncodeAndDecode := by
  intro w e
  refine ⟨fun v hfits => ⟨idxBytes_length w e v, unIdx_idxBytes e hfits⟩,
    fun bs hlen => ⟨fitsIdx_unIdx e hlen, idxBytes_unIdx e hlen⟩, fun v k hk => ?_, fun v => rfl⟩
  rw [idxBytes, inOrder, leBytes_getElem? hk, byte_of_patternOf hk]

end Sys2Proof.Machine

namespace Sys2Proof.Machine

/-! ### The header rows (R84, R85, R190, R192) -/

theorem setPos_small {p : Nat} (h : p < 2 ^ 64) (s : State) : setPos p s = { s with srcpos := BitVec.ofNat 64 p } := by
  rw [setPos, narrowSize, if_pos h]

/-- The bytes of the word that four bytes make, the first in bits 31:24. -/
theorem magicWordBytes_append (b0 b1 b2 b3 : Byte) : magicWordBytes (b0 ++ b1 ++ b2 ++ b3) = [b0, b1, b2, b3] := by
  simp only [magicWordBytes, BitVec.extractLsb'_append_eq_of_le, BitVec.extractLsb'_append_eq_right,
    BitVec.extractLsb'_eq_self, Nat.reduceLeDiff, Nat.reduceSub, Nat.le_refl]

/-- A word is made of its four bytes. -/
theorem append_extractLsb'_bytes (m : BitVec 32) :
    m.extractLsb' 24 8 ++ m.extractLsb' 16 8 ++ m.extractLsb' 8 8 ++ m.extractLsb' 0 8 = m := by
  rw [BitVec.extractLsb'_append_extractLsb'_eq_extractLsb' (start₁ := 16) (len₁ := 8) rfl,
    BitVec.extractLsb'_append_extractLsb'_eq_extractLsb' (start₁ := 8) (len₁ := 8) rfl,
    BitVec.extractLsb'_append_extractLsb'_eq_extractLsb' (start₁ := 0) (len₁ := 8) rfl]
  exact BitVec.extractLsb'_eq_self

theorem magicWordBytes_eq_iff {m : BitVec 32} {b0 b1 b2 b3 : Byte} :
    magicWordBytes m = [b0, b1, b2, b3] ↔ m = b0 ++ b1 ++ b2 ++ b3 := by
  refine ⟨fun h => ?_, fun h => by rw [h, magicWordBytes_append]⟩
  simp only [magicWordBytes, List.cons.injEq] at h
  obtain ⟨rfl, rfl, rfl, rfl, -⟩ := h
  exact (append_extractLsb'_bytes m).symm

/-- Settles O51: the two sides of the magic test; the flag rows are the dispatch. -/
theorem headerRowsSelect : Obligations.HeaderRowsSelect := by
  refine fun s => ⟨fun m => ?_, fun rsv => ⟨rfl, rfl⟩⟩
  have htest : magicWordBytes m = s.cfg.magicBytes ↔
      m = s.cfg.magic0 ++ s.cfg.magic1 ++ s.cfg.magic2 ++ s.cfg.magic3 := magicWordBytes_eq_iff
  rw [exec, execHdrMagic, testMagic, ne_eq, ← htest]
  refine ⟨fun hmagic => ?_, fun hother => ?_⟩
  · rw [if_pos hmagic]
    rfl
  · rw [if_neg hother]
    rfl

/-- RD_MAGIC with four bytes or more is the row of the word read. -/
theorem execRdMagic_of_length {s : State} (h : 4 ≤ s.srclen.toNat) :
    exec .rdMagic s =
      exec (.hdrMagic (srcByte s 0 ++ srcByte s 1 ++ srcByte s 2 ++ srcByte s 3)) { s with srcpos := 4#64 } := by
  have hread : memRead 0 4 s = magicWordBytes (srcByte s 0 ++ srcByte s 1 ++ srcByte s 2 ++ srcByte s 3) := by
    rw [magicWordBytes_append]
    rfl
  rw [exec, execRdMagic, if_neg (Nat.not_lt.2 h), setPos_small (by decide), hread]
  rfl

/-- RD_FLAG with five bytes or more is the dispatch on bit 0 of byte 4. -/
theorem execRdFlag_of_length {s : State} (h : 5 ≤ s.srclen.toNat) :
    exec .rdFlag s = .next (dispatchFlag ((srcByte s 4).getLsbD 0) { s with srcpos := 5#64 }) := by
  rw [exec, execRdFlag, if_neg (Nat.not_lt.2 h), setPos_small (by decide)]
  rfl

/-- The row a flag byte encodes is the dispatch on its bit 0 (R85). -/
theorem exec_of_decode_hdrFlag {b : Byte} {i : Instr} (h : decode .hdrFlag b.toNat = .instr i) (s : State) :
    exec i s = .next (dispatchFlag (b.getLsbD 0) s) := by
  have hbit : b.getLsbD 0 = decide (b.toNat % 2 = 1) := by
    rw [BitVec.getLsbD, Nat.testBit_zero]
  rw [decode_hdrFlag b.isLt, decodeHdrFlag] at h
  split at h <;> cases h
  next hodd => rw [hbit, decide_eq_true hodd]; rfl
  next heven => rw [hbit, decide_eq_false heven]; rfl

/-- Settles O52: the row decoded is the one the read ends in. -/
theorem headerReadsEndInTheirRows : Obligations.HeaderReadsEndInTheirRows := by
  refine fun s => ⟨fun hlen i hdec => ?_, fun hlen i hdec => ?_⟩
  · rw [decode_hdrMagic (BitVec.isLt _)] at hdec
    cases hdec
    rw [execRdMagic_of_length hlen, BitVec.ofNat_toNat, BitVec.setWidth_eq]
  · rw [execRdFlag_of_length hlen, exec_of_decode_hdrFlag hdec]

end Sys2Proof.Machine

namespace Sys2Proof.Machine

/-! ### The node rows (R97, R165 to R169) -/

theorem emit_of_answer {s : State} (sym : Byte) (h : nextAnswer s = true) :
    emit sym s = .go (backToRoot (appendBytes [sym] (popAnswer s))) := by
  rw [emit, memWrite_of_answer _ h, go_andThen]

theorem emit_of_no_answer {s : State} (sym : Byte) (h : nextAnswer s = false) :
    emit sym s = .raised (takeError .ioFailure (popAnswer s)) := by
  rw [emit, memWrite_of_no_answer _ h, raised_andThen]

/-- Settles O42: the two answers a symbol row can meet. -/
theorem leafRowsStopOrEmit : Obligations.LeafRowsStopOrEmit := by
  refine fun s => ⟨rfl, fun sym => ?_⟩
  rw [exec, execNodeSymbol]
  refine ⟨fun hyes => ?_, fun hno => ?_⟩
  · rw [emit_of_answer sym hyes]
    exact ⟨_, rfl, bytes_extend s.dst [sym], rfl⟩
  · rw [emit_of_no_answer sym hno]
    rfl

theorem refill_of_end {s : State} (hq : s.nbq = 0#4) (hend : s.srclen.toNat ≤ s.srcpos.toNat) :
    refill s = .raised (takeError .insufficientData s) := by
  rw [refill, if_pos hq, finished, if_pos (decide_eq_true hend), raise]

theorem refill_of_source {s : State} (hq : s.nbq = 0#4) (hmore : s.srcpos.toNat < s.srclen.toNat) :
    refill s = .go (fetchByte (srcByte s s.srcpos.toNat) s) := by
  rw [refill, if_pos hq, finished, if_neg (by simpa using hmore)]
  rfl

/-- The walk moves to a node, or finds none there (R165, R167). -/
def standAt (c : Int) (s : State) : Flow :=
  if isNodeId c then .go { s with cur := c } else raise .structuralInconsistency s

theorem standAt_of_isNodeId {c : Int} (h : isNodeId c = true) (s : State) : standAt c s = .go { s with cur := c } :=
  if_pos h

theorem standAt_of_not_isNodeId {c : Int} (h : ¬ isNodeId c = true) (s : State) :
    standAt c s = .raised (takeError .structuralInconsistency s) :=
  if_neg h

theorem isNodeId_iff {c : Int} : isNodeId c = true ↔ 0 ≤ c ∧ c ≤ 511 := by simp [isNodeId]

theorem isInternalId_iff {c : Int} : isInternalId c = true ↔ 256 ≤ c ∧ c ≤ 511 := by simp [isInternalId]

theorem descend_of_refill {s t : State} (i : Nat) (h : refill s = .go t) :
    descend i s = standAt (child t.nodes i t.bq.msb) (dropBit t) := by
  rw [descend, h]
  rfl

theorem descend_of_end {s : State} (i : Nat) (hq : s.nbq = 0#4) (hend : s.srclen.toNat ≤ s.srcpos.toNat) :
    descend i s = .raised (takeError .insufficientData s) := by
  rw [descend, refill_of_end hq hend]
  rfl

/-- One step of the walk from a queue that holds a bit. -/
theorem descend_of_queue {s : State} (i : Nat) (hq : s.nbq ≠ 0#4) :
    descend i s = standAt (child s.nodes i (s.bq.getLsbD 7))
      { s with bq := s.bq <<< 1, nbq := s.nbq - 1#4, srcpos := BitVec.ofNat 64 s.srcpos.toNat } := by
  rw [descend_of_refill i (refill_of_bits hq), BitVec.ofNat_toNat, BitVec.setWidth_eq]
  rfl

/-- The first bit of a byte fetched is taken at once. -/
theorem dropBit_fetchByte (b : Byte) {s : State} (hpos : s.srcpos.toNat + 1 < 2 ^ 64) :
    dropBit (fetchByte b s) =
      { s with bq := b <<< 1, nbq := 7#4, srcpos := BitVec.ofNat 64 (s.srcpos.toNat + 1) } := by
  simp only [dropBit, fetchByte, setPos_small hpos, BitVec.reduceSub]

/-- One step of the walk from an empty queue, with a source byte to fetch. -/
theorem descend_of_source {s : State} (i : Nat) (hq : s.nbq = 0#4) (hmore : s.srcpos.toNat < s.srclen.toNat) :
    descend i s = standAt (child s.nodes i ((srcByte s s.srcpos.toNat).getLsbD 7))
      { s with
        bq := srcByte s s.srcpos.toNat <<< 1, nbq := 7#4, srcpos := BitVec.ofNat 64 (s.srcpos.toNat + 1) } := by
  have hpos : s.srcpos.toNat + 1 < 2 ^ 64 := by have := s.srclen.isLt; omega
  rw [descend_of_refill i (refill_of_source hq hmore), dropBit_fetchByte _ hpos]
  rfl

/-- Settles O43: the step of the walk from either source of the bit, and the node it finds. -/
theorem internalRowTakesOneBit : Obligations.InternalRowTakesOneBit := by
  intro s slot
  have hrow : exec (.nodeInternal slot) s = (descend (256 + slot.toNat) s).toOutcome := rfl
  refine ⟨fun hq hend => by rw [hrow, descend_of_end _ hq hend]; rfl, fun bit q pos nbq c hbit hc => ?_⟩
  have hstep : descend (256 + slot.toNat) s =
      standAt c { s with bq := q, nbq := nbq, srcpos := BitVec.ofNat 64 pos } := by
    rcases hbit with ⟨hq, rfl, rfl, rfl, rfl⟩ | ⟨hq, hmore, rfl, rfl, rfl, rfl⟩
    · rw [descend_of_queue _ hq, hc, child]
    · rw [descend_of_source _ hq hmore, hc, child]
  rw [hrow, hstep]
  refine ⟨fun h0 h511 => ?_, fun hout => ?_⟩
  · rw [standAt_of_isNodeId (isNodeId_iff.2 ⟨h0, h511⟩)]
    rfl
  · rw [standAt_of_not_isNodeId fun hid => by have := isNodeId_iff.1 hid; omega]
    rfl

/-! ### UNPACK by its node rows -/

theorem takeError_phase_ne_unpack (x : ErrCode) (s : State) : (takeError x s).phase ≠ 14#5 := by simp

/-- The bits the walk has before it: those in the queue and those of the source bytes not fetched yet. -/
def bitsAhead (s : State) : Nat := s.nbq.toNat + payloadBits s

theorem descend_of_no_bits {s : State} (i : Nat) (h : bitsAhead s = 0) :
    descend i s = .raised (takeError .insufficientData s) := by
  simp only [bitsAhead, payloadBits] at h
  exact descend_of_end i (BitVec.eq_of_toNat_eq (by rw [BitVec.toNat_zero]; omega)) (by omega)

/-- The walk at node `i` with `n + 1` bits before it: one of them is taken, and leads to a node or to none. -/
theorem descend_takes_one_bit {s : State} {n : Nat} (i : Nat) (h : bitsAhead s = n + 1) :
    ∃ t, bitsAhead t = n ∧ t.phase = s.phase ∧ t.nodes = s.nodes ∧
      (isNodeId t.cur = true ∧ descend i s = .go t ∨
        descend i s = .raised (takeError .structuralInconsistency t)) := by
  obtain ⟨c, t, hstep, hbits, hphase, hnodes⟩ : ∃ c t, descend i s = standAt c t ∧ bitsAhead t = n ∧
      t.phase = s.phase ∧ t.nodes = s.nodes := by
    simp only [bitsAhead, payloadBits] at h
    by_cases hq : s.nbq = 0#4
    · have hnone : s.nbq.toNat = 0 := by rw [hq, BitVec.toNat_zero]
      have hpos : s.srcpos.toNat + 1 < 2 ^ 64 := by have := s.srclen.isLt; omega
      refine ⟨_, _, descend_of_source i hq (by omega), ?_, rfl, rfl⟩
      simp only [bitsAhead, payloadBits, BitVec.toNat_ofNat, Nat.mod_eq_of_lt hpos]
      omega
    · have hless : (s.nbq - 1#4).toNat + 1 = s.nbq.toNat := by bv_omega
      refine ⟨_, _, descend_of_queue i hq, ?_, rfl, rfl⟩
      simp only [bitsAhead, payloadBits, BitVec.ofNat_toNat, BitVec.setWidth_eq]
      omega
  by_cases hid : isNodeId c = true
  · exact ⟨{ t with cur := c }, hbits, hphase, hnodes, .inl ⟨hid, by rw [hstep, standAt_of_isNodeId hid]⟩⟩
  · exact ⟨t, hbits, hphase, hnodes, .inr (by rw [hstep, standAt_of_not_isNodeId hid])⟩

section Rows
variable {s t : State} {i : Instr}

theorem runNodeRows_of_next (k : Nat) (hrow : decode .nodeid s.cur.toNat = .instr i) (ht : exec i s = .next t)
    (hphase : t.phase = 14#5) : runNodeRows (k + 1) s = runNodeRows k t := by
  simp [runNodeRows, hrow, ht, hphase]

theorem runNodeRows_of_stop (k : Nat) (hrow : decode .nodeid s.cur.toNat = .instr i) (ht : exec i s = .next t)
    (hphase : t.phase ≠ 14#5) : runNodeRows (k + 1) s = .next t := by
  simp [runNodeRows, hrow, ht, hphase]

/-- The row of an internal node is the step of the walk from it. -/
theorem row_of_internal (h : isInternalId s.cur = true) :
    ∃ slot, decode .nodeid s.cur.toNat = .instr (.nodeInternal slot) ∧
      exec (.nodeInternal slot) s = (descend s.cur.toNat s).toOutcome := by
  rw [isInternalId_iff] at h
  have hslot : 256 + (BitVec.ofNat 8 s.cur.toNat).toNat = s.cur.toNat := by
    rw [BitVec.toNat_ofNat]
    omega
  refine ⟨BitVec.ofNat 8 s.cur.toNat, ?_, by rw [exec, execNodeInternal, hslot]⟩
  rw [decode_nodeid (by omega), decodeNodeid, if_neg (by omega), if_neg (by omega)]

/-- The row of a symbol leaf is that symbol's. -/
theorem row_of_symbol (h0 : 0 < s.cur) (h256 : s.cur < 256) :
    decode .nodeid s.cur.toNat = .instr (.nodeSymbol (BitVec.ofInt 8 s.cur)) := by
  have hsym : BitVec.ofNat 8 s.cur.toNat = BitVec.ofInt 8 s.cur := by
    rw [← BitVec.ofInt_natCast, Int.toNat_of_nonneg h0.le]
  rw [decode_nodeid (by omega), decodeNodeid, if_neg (by omega), if_pos (by omega), hsym]

theorem runNodeRows_of_descend (k : Nat) (hcur : isInternalId s.cur = true) (h : descend s.cur.toNat s = .go t)
    (hphase : t.phase = 14#5) : runNodeRows (k + 1) s = runNodeRows k t := by
  obtain ⟨slot, hrow, hexec⟩ := row_of_internal hcur
  exact runNodeRows_of_next k hrow (by rw [hexec, h, go_toOutcome]) hphase

theorem runNodeRows_of_descend_raised {x : ErrCode} (k : Nat) (hcur : isInternalId s.cur = true)
    (h : descend s.cur.toNat s = .raised (takeError x t)) : runNodeRows (k + 1) s = .next (takeError x t) := by
  obtain ⟨slot, hrow, hexec⟩ := row_of_internal hcur
  exact runNodeRows_of_stop k hrow (by rw [hexec, h, raised_toOutcome]) (takeError_phase_ne_unpack x t)

theorem runNodeRows_of_terminator (k : Nat) (hcur : s.cur = 0) : runNodeRows (k + 1) s = .next (setPc .finish s) := by
  have hrow : decode .nodeid s.cur.toNat = .instr .nodeTerminator := by rw [hcur]; rfl
  have hphase : Instr.finish.phaseCode ≠ 14#5 := by decide
  exact runNodeRows_of_stop k hrow rfl hphase

theorem runNodeRows_of_emit (k : Nat) (h0 : 0 < s.cur) (h256 : s.cur < 256)
    (h : emit (BitVec.ofInt 8 s.cur) s = .go t) (hphase : t.phase = 14#5) :
    runNodeRows (k + 1) s = runNodeRows k t :=
  runNodeRows_of_next k (row_of_symbol h0 h256) (by rw [exec, execNodeSymbol, h, go_toOutcome]) hphase

theorem runNodeRows_of_emit_raised {x : ErrCode} (k : Nat) (h0 : 0 < s.cur) (h256 : s.cur < 256)
    (h : emit (BitVec.ofInt 8 s.cur) s = .raised (takeError x t)) : runNodeRows (k + 1) s = .next (takeError x t) :=
  runNodeRows_of_stop k (row_of_symbol h0 h256) (by rw [exec, execNodeSymbol, h, raised_toOutcome])
    (takeError_phase_ne_unpack x t)

end Rows

/-- The rows from an internal node do what the loop of UNPACK does with the bits it has: at most two rows a bit, and
one for the bit that is missing. -/
theorem runNodeRows_eq_walk {s : State} {bits k : Nat} (hphase : s.phase = 14#5)
    (hroot : isInternalId s.nodes.root = true) (hcur : isInternalId s.cur = true) (hbits : bitsAhead s = bits)
    (hk : 2 * bits + 1 ≤ k) : runNodeRows k s = (walk bits s).endPhase .finish := by
  induction bits generalizing s k with
  | zero =>
    obtain ⟨k, rfl⟩ := Nat.exists_eq_add_of_le' hk
    rw [runNodeRows_of_descend_raised _ hcur (descend_of_no_bits _ hbits)]
    rfl
  | succ bits ih =>
    obtain ⟨k, rfl⟩ : ∃ j, k = j + 2 := ⟨k - 2, by omega⟩
    obtain ⟨t, htbits, htphase, htnodes, ⟨hid, hgo⟩ | hraised⟩ := descend_takes_one_bit s.cur.toNat hbits
    · rw [hphase] at htphase
      rw [← htnodes] at hroot
      rw [runNodeRows_of_descend (k + 1) hcur hgo htphase, walk, hgo, go_andThen]
      obtain ⟨h0, h511⟩ := isNodeId_iff.1 hid
      by_cases hzero : t.cur = 0
      · rw [runNodeRows_of_terminator k hzero, if_pos hzero, go_endPhase]
      · rw [if_neg hzero]
        by_cases hleaf : t.cur < 256
        · rw [if_pos hleaf]
          cases hanswer : nextAnswer t
          · have hemit := emit_of_no_answer (BitVec.ofInt 8 t.cur) hanswer
            rw [runNodeRows_of_emit_raised k (by omega) hleaf hemit, hemit, raised_andThen, raised_endPhase]
          · have hemit := emit_of_answer (BitVec.ofInt 8 t.cur) hanswer
            rw [runNodeRows_of_emit k (by omega) hleaf hemit htphase, hemit, go_andThen]
            exact ih htphase hroot hroot htbits (by omega)
        · rw [if_neg hleaf]
          exact ih htphase hroot (isInternalId_iff.2 ⟨by omega, h511⟩) htbits (by omega)
    · rw [runNodeRows_of_descend_raised _ hcur hraised, walk, hraised, raised_andThen, raised_endPhase]

/-- Settles O41: at its start UNPACK stands at the root with all payload bits ahead. -/
theorem unpackIsItsNodeRowsInOrder : Obligations.UnpackIsItsNodeRowsInOrder := by
  intro s hphase hlow hhigh
  have hroot : isInternalId s.nodes.root = true := isInternalId_iff.2 ⟨hlow, hhigh⟩
  have hbits : bitsAhead (startWalk s) = payloadBits s := Nat.zero_add _
  rw [exec, execUnpack, if_pos hroot]
  exact runNodeRows_eq_walk (s := startWalk s) hphase hroot hroot hbits (by omega)

end Sys2Proof.Machine

namespace Sys2Proof.Machine

/-! ### PACK (R89, R160 to R163) -/

/-- The bits appended that no whole byte holds yet: the low `nacc` bits of `acc`. -/
def pendingBits (s : State) : List Bool := (byteBits s.acc).drop (8 - s.nacc.toNat)

theorem pendingBits_length (s : State) : (pendingBits s).length = s.nacc.toNat := by
  have := s.nacc.isLt
  simp only [pendingBits, List.length_drop, byteBits, List.length_cons, List.length_nil]
  omega

theorem pendingBits_of_empty {s : State} (h : s.nacc = 0#3) : pendingBits s = [] :=
  List.eq_nil_of_length_eq_zero (by rw [pendingBits_length, h, BitVec.toNat_zero])

/-- A bit shifted in pushes the top bit of the accumulator out. -/
theorem byteBits_shiftIn (b : Bool) (s : State) :
    byteBits (shiftIn b s).acc = (byteBits s.acc).drop 1 ++ [b] := by
  simp [byteBits, shiftIn]

/-- Below eight bits the bit shifted in is pending. -/
theorem pendingBits_shiftIn {s : State} (b : Bool) (h : s.nacc ≠ 7#3) :
    pendingBits (shiftIn b s) = pendingBits s ++ [b] := by
  have hnacc : (shiftIn b s).nacc.toNat = s.nacc.toNat + 1 := by
    simp only [shiftIn_nacc]
    bv_omega
  have hlen : ((byteBits s.acc).drop 1).length = 7 := rfl
  have := (shiftIn b s).nacc.isLt
  rw [pendingBits, pendingBits, byteBits_shiftIn, hnacc, List.drop_append_of_le_length (by omega), List.drop_drop]
  congr 2
  omega

/-- At eight bits the accumulator is the byte of the pending bits and the bit shifted in. -/
theorem byteBits_shiftIn_of_full {s : State} (b : Bool) (h : s.nacc = 7#3) :
    byteBits (shiftIn b s).acc = pendingBits s ++ [b] := by
  rw [byteBits_shiftIn, pendingBits, h]
  rfl

/-- From `s` to `t` the packer has appended the bits: the whole bytes `v` to the destination, one request each, the rest
pending in the accumulator. -/
structure Packed (s : State) (bits : List Bool) (v : List Byte) (t : State) : Prop where
  answers : AllAnswersTrue t
  dst : t.dst = Memory.extend s.dst v
  bits : v.flatMap byteBits ++ pendingBits t = pendingBits s ++ bits
  frame : t = { s with
    acc := t.acc, nacc := t.nacc, dst := t.dst, dstlen := t.dstlen, answers := s.answers.drop v.length }

theorem Packed.refl {s : State} (h : AllAnswersTrue s) : Packed s [] [] s :=
  ⟨h, (extend_nil _).symm, by simp, rfl⟩

theorem Packed.trans {s t u : State} {bits bits' : List Bool} {v v' : List Byte} (h : Packed s bits v t)
    (h' : Packed t bits' v' u) : Packed s (bits ++ bits') (v ++ v') u where
  answers := h'.answers
  dst := by rw [h'.dst, h.dst, extend_extend]
  bits := by rw [List.flatMap_append, List.append_assoc, h'.bits, ← List.append_assoc, h.bits, List.append_assoc]
  frame := by
    rw [h'.frame, h.frame]
    simp

theorem Packed.setPos {s t : State} {bits : List Bool} {v : List Byte} (h : Packed s bits v t) (p : Nat) :
    Packed (setPos p s) bits v (setPos p t) where
  answers := h.answers
  dst := h.dst
  bits := h.bits
  frame := by
    conv_lhs => rw [h.frame]
    rfl

theorem appendBit_packs {s : State} (b : Bool) (h : AllAnswersTrue s) :
    ∃ t v, appendBit b s = .go t ∧ Packed s [b] v t := by
  by_cases hfull : s.nacc = 7#3
  · refine ⟨clearAcc (appendBytes [(shiftIn b s).acc] (popAnswer (shiftIn b s))), [(shiftIn b s).acc], ?_, ?_⟩
    · rw [appendBit, if_pos hfull, memWrite_of_answer _ (nextAnswer_of_allTrue (s := shiftIn b s) h), go_andThen]
    · refine ⟨allTrue_appendBytes (s := shiftIn b s) h [(shiftIn b s).acc], rfl, ?_, ?_⟩
      · rw [pendingBits_of_empty rfl, List.append_nil, List.flatMap_singleton]
        exact byteBits_shiftIn_of_full b hfull
      · simp [clearAcc, appendBytes, popAnswer, shiftIn]
  · exact ⟨shiftIn b s, [], by rw [appendBit, if_neg hfull], h, (extend_nil _).symm,
      pendingBits_shiftIn b hfull, rfl⟩

theorem appendBits_packs {s : State} (bits : List Bool) (h : AllAnswersTrue s) :
    ∃ t v, appendBits bits s = .go t ∧ Packed s bits v t := by
  induction bits generalizing s with
  | nil => exact ⟨s, [], rfl, .refl h⟩
  | cons b bits ih =>
    obtain ⟨t, v, ht, hpacked⟩ := appendBit_packs b h
    obtain ⟨u, v', hu, hrest⟩ := ih hpacked.answers
    exact ⟨u, v ++ v', by rw [appendBits, ht, go_andThen, hu], hpacked.trans hrest⟩

/-- The loop of PACK from its position: the codes of the bytes in order, SRCPOS after the last of them. -/
theorem packBytes_packs {s : State} {pos : Nat} (bs : List Byte) (h : AllAnswersTrue s)
    (hpos : s.srcpos = narrowSize pos) :
    ∃ t v, packBytes pos bs s = .go t ∧ Packed (setPos (pos + bs.length) s) (bs.flatMap (getCode s.code)) v t := by
  induction bs generalizing s pos with
  | nil =>
    have hsame : setPos pos s = s := by rw [setPos, ← hpos]
    exact ⟨s, [], rfl, by simpa [hsame] using Packed.refl h⟩
  | cons b bs ih =>
    obtain ⟨t, v, ht, hpacked⟩ := appendBits_packs (s := setPos (pos + 1) s) (getCode s.code b) h
    have hcode : t.code = s.code := by rw [hpacked.frame]; rfl
    have htpos : t.srcpos = narrowSize (pos + 1) := by rw [hpacked.frame]; rfl
    obtain ⟨u, v', hu, hrest⟩ := ih hpacked.answers htpos
    refine ⟨u, v ++ v', by rw [packBytes, ht, go_andThen, hu], ?_⟩
    rw [hcode, show pos + 1 + bs.length = pos + (b :: bs).length by simp; omega] at hrest
    exact (hpacked.setPos _).trans hrest

/-- What the whole bytes are, once eight zero bits have followed the codes (R89). -/
theorem payload_of_packed {s t : State} {bits : List Bool} {v : List Byte} (hs : s.nacc = 0#3)
    (h : Packed s (bits ++ List.replicate 8 false) v t) :
    v.length = bits.length / 8 + 1 ∧ v.flatMap byteBits = (bits ++ List.replicate 8 false).take (8 * v.length) ∧
      t.nacc.toNat = bits.length % 8 := by
  have hbits := h.bits
  rw [pendingBits_of_empty hs, List.nil_append] at hbits
  have hwhole : (v.flatMap byteBits).length = 8 * v.length := by
    simp [List.length_flatMap, byteBits, Nat.mul_comm]
  have hlen := congrArg List.length hbits
  rw [List.length_append, hwhole, pendingBits_length, List.length_append, List.length_replicate] at hlen
  have := t.nacc.isLt
  refine ⟨by omega, ?_, by omega⟩
  rw [← hbits, ← hwhole, List.take_left]

/-- PACK as a whole: the codes, the terminator's code and eight zero bits, from an empty accumulator. -/
theorem execPack_packs {s : State} (h : AllAnswersTrue s) :
    ∃ u v, exec .pack s = .next (setPc .finish u) ∧
      Packed { clearAcc s with srcpos := s.srclen }
        ((srcBytes s).flatMap (getCode s.code) ++ getCode s.code 0#8 ++ List.replicate 8 false) v u := by
  have hend : setPos (0 + (srcBytes s).length) (clearAcc (setPos 0 s)) = { clearAcc s with srcpos := s.srclen } := by
    rw [setPos, srcBytes, memRead_length, Nat.zero_add, narrowSize_of_toNat]
    rfl
  obtain ⟨t, v, hloop, hcodes⟩ := packBytes_packs (s := clearAcc (setPos 0 s)) (pos := 0) (srcBytes s) h rfl
  rw [srcBytes] at hloop
  rw [hend] at hcodes
  have hcode : t.code = s.code := by rw [hcodes.frame]; rfl
  obtain ⟨u, v', htail, hpacked⟩ := appendBits_packs (getCode t.code 0#8 ++ List.replicate 8 false) hcodes.answers
  refine ⟨u, v ++ v', ?_, ?_⟩
  · rw [exec, execPack, hloop, go_andThen, packTail, htail, go_endPhase]
  · rw [hcode] at hpacked
    rw [List.append_assoc]
    exact hcodes.trans hpacked

/-- Settles O38: the bytes the packer has appended by the end of PACK are the payload. -/
theorem packWritesThePayloadBits : Obligations.PackWritesThePayloadBits := by
  intro s hs
  obtain ⟨u, v, hexec, hpacked⟩ := execPack_packs hs
  obtain ⟨hlen, hbits, hnacc⟩ := payload_of_packed rfl hpacked
  have hpos : u.srcpos = s.srclen := by rw [hpacked.frame]
  refine ⟨setPc .finish u, v, _, rfl, hexec, ?_, hlen, hbits, hnacc, hpos, ?_⟩
  · rw [setPc_dst, hpacked.dst]
    exact bytes_extend s.dst v
  · rw [setPc_srcpos, hpos]
    conv_lhs => rw [hpacked.frame]
    rfl

end Sys2Proof.Machine

/-! SUPPORT. Proofs for the family of spec/40_frequency_analyzer.md: INIT (O21), the first byte that overflows (O23) and
the closed form of FREQ's counts (O22). The closed form is proved for every table with room for the bytes that are
counted; the loop's invariant is that the counts are those of before plus the occurrences among the chunks read. -/

namespace Sys2Proof.Machine

/-! ### INIT (R110) -/

theorem execInit_of_open {s : State} (h : nextAnswer s = true) :
    exec .init s =
      .next (setPc (if s.op = 1#2 then .wrMagic else .rdMagic) (startOperation (newDestination (popAnswer s)))) := by
  rw [exec, execInit, if_pos h, go_endPhase]

theorem execInit_of_failed_open {s : State} (h : nextAnswer s = false) :
    exec .init s = .next (takeError .ioFailure (newDestination (popAnswer s))) := by
  simp only [exec, execInit, h, Bool.false_eq_true, if_false, raise, raised_endPhase]

/-- The phase INIT hands on to (R110). -/
theorem phaseCode_afterInit (s : State) :
    (if s.op = 1#2 then Instr.wrMagic else Instr.rdMagic).phaseCode = if s.op = 1#2 then 2#5 else 11#5 := by
  split <;> rfl

theorem getCount_initialNodes {i : Nat} (hi : i < 512) :
    getCount initialNodes.count i = if i = 0 then 1#32 else 0#32 := by
  rw [initialNodes, getCount_set, getCount_replicate _ hi]
  simp [eq_comm]

theorem replicate_noNode_getElem? {i : Nat} (hi : i < 512) : (Vector.replicate 512 noNode)[i]? = some (-1) := by
  simp [hi, noNode]

/-- Settles O21: the two answers to the open. -/
theorem initStartsTheOperation : Obligations.InitStartsTheOperation := by
  refine fun s => ⟨fun hopen => ⟨_, execInit_of_open hopen, ?_, fun i hi => ?_, ?_, ?_⟩, execInit_of_failed_open⟩
  · simp only [← phaseCode_afterInit, setPc, startOperation, newDestination, popAnswer]
  · have hlink := replicate_noNode_getElem? hi
    rw [setPc_nodes, startOperation_nodes]
    exact ⟨getCount_initialNodes hi, hlink, hlink, hlink⟩
  · simp [initialNodes, noNode]
  · simp [initialNodes]

end Sys2Proof.Machine

namespace Sys2Proof.Machine

/-! ### Source bytes -/

/-- A read is the source bytes in order (R52). -/
theorem memRead_eq_map_srcByte (a n : Nat) (s : State) :
    memRead a n s = (List.range n).map fun k => srcByte s (a + k) := rfl

/-- A chunk begins with its first source byte. -/
theorem readChunk_buf_cons (pos : Nat) (s : State) :
    (readChunk pos s).buf = srcByte s pos :: memRead (pos + 1) s.cfg.chunkPred s := by
  rw [readChunk_buf, Config.chunk, Nat.add_comm, memRead_add]
  rfl

theorem srcByte_of_end {s : State} {p : Nat} (h : s.srclen.toNat ≤ p) : srcByte s p = 0#8 := by
  simp [srcByte, memRead, Nat.not_lt.2 h]

/-! ### The scan of a chunk (R111) -/

theorem countByte_of_max {b : Byte} {c : Vector Count 512} (h : (getCount c b.toNat).toInt = cntMax) :
    countByte b c = none := if_pos h

theorem countByte_of_room {b : Byte} {c : Vector Count 512} (h : (getCount c b.toNat).toInt < cntMax) :
    countByte b c = some (c.setIfInBounds b.toNat (getCount c b.toNat + 1#32)) := if_neg h.ne

theorem scanChunk_zero (bs : List Byte) (c : Vector Count 512) : scanChunk (0#8 :: bs) c = (c, false) := rfl

theorem scanChunk_of_max {b : Byte} (hb : b ≠ 0#8) (bs : List Byte) {c : Vector Count 512}
    (h : (getCount c b.toNat).toInt = cntMax) : scanChunk (b :: bs) c = (c, true) := by
  rw [scanChunk, if_neg hb, countByte_of_max h]

theorem scanChunk_of_room {b : Byte} (hb : b ≠ 0#8) (bs : List Byte) {c : Vector Count 512}
    (h : (getCount c b.toNat).toInt < cntMax) :
    scanChunk (b :: bs) c = scanChunk bs (c.setIfInBounds b.toNat (getCount c b.toNat + 1#32)) := by
  rw [scanChunk, if_neg hb, countByte_of_room h]

theorem toInt_add_one {x : Count} (h : x.toInt < cntMax) : (x + 1#32).toInt = x.toInt + 1 := by
  have := BitVec.le_toInt x
  rw [cntMax] at h
  rw [BitVec.toInt_add, BitVec.toInt_one (by decide), Int.bmod_eq_of_le] <;> omega

/-- The byte `b` counted once more: the other counts are those of before. -/
theorem getCount_counted {b : Byte} {c : Vector Count 512} (h : (getCount c b.toNat).toInt < cntMax) (x : Byte) :
    (getCount (c.setIfInBounds b.toNat (getCount c b.toNat + 1#32)) x.toNat).toInt =
      (getCount c x.toNat).toInt + if b = x then 1 else 0 := by
  have hb : b.toNat < 512 := by have := b.isLt; omega
  rw [getCount_set]
  by_cases hx : b = x
  · subst hx
    simp [hb, toInt_add_one h]
  · simp [hx, BitVec.toNat_inj]

/-- Where every byte up to the first zero has room, the scan counts exactly those bytes. -/
theorem scanChunk_counts (bs : List Byte) (c : Vector Count 512)
    (h : ∀ x : Byte, (getCount c x.toNat).toInt + (bs.takeWhile (· != 0#8)).count x ≤ cntMax) :
    (scanChunk bs c).2 = false ∧ ∀ x : Byte, (getCount (scanChunk bs c).1 x.toNat).toInt =
      (getCount c x.toNat).toInt + (bs.takeWhile (· != 0#8)).count x := by
  induction bs generalizing c with
  | nil => exact ⟨rfl, fun x => by simp [scanChunk]⟩
  | cons b bs ih =>
    by_cases hb : b = 0#8
    · subst hb
      exact ⟨rfl, fun x => by simp [scanChunk_zero]⟩
    · have hcount : ∀ x : Byte, (((b :: bs).takeWhile (· != 0#8)).count x : Int) =
          (if b = x then 1 else 0) + (bs.takeWhile (· != 0#8)).count x := fun x => by
        simp [hb, List.count_cons, Int.add_comm]
      have hroom : (getCount c b.toNat).toInt < cntMax := by
        have := h b
        rw [hcount, if_pos rfl] at this
        omega
      obtain ⟨hflag, hcounts⟩ := ih (c.setIfInBounds b.toNat (getCount c b.toNat + 1#32)) fun x => by
        rw [getCount_counted hroom, Int.add_assoc, ← hcount]
        exact h x
      rw [scanChunk_of_room hb bs hroom]
      exact ⟨hflag, fun x => by rw [hcounts, getCount_counted hroom, Int.add_assoc, hcount]⟩

/-- Settles O23: the first pass of the loop reads the byte and raises. -/
theorem freqRaisesCountOverflow : Obligations.FreqRaisesCountOverflow := by
  intro s hpos hlen hbyte hmax
  obtain ⟨fuel, hfuel⟩ := Nat.exists_eq_add_of_lt hlen
  have hscan : scanChunk (readChunk 0 s).buf (readChunk 0 s).nodes.count = (s.nodes.count, true) := by
    rw [readChunk_buf_cons]
    exact scanChunk_of_max hbyte _ hmax
  have hloop : freqLoop s.srclen.toNat 0 s = raise .countOverflow (countChunk (readChunk 0 s)) := by
    rw [hfuel, freqLoop_succ, if_neg (by omega), hscan, if_pos rfl]
  refine ⟨takeError .countOverflow (countChunk (readChunk 0 s)), ?_, rfl, rfl, rfl, rfl, ?_, rfl⟩
  · rw [exec, execFreq, hpos, BitVec.toNat_zero, Nat.sub_zero, hloop]
    rfl
  · rw [takeError_nodes, countChunk, hscan]
    rfl

end Sys2Proof.Machine

namespace Sys2Proof.Machine

theorem chunk_pos (c : Config) : 0 < c.chunk := Nat.succ_pos _

/-! ### Occurrences below a position (R112) -/

/-- How often FREQ counts the byte among the first `n` positions. -/
def occurrencesBelow (s : State) (b : Byte) (n : Nat) : Nat :=
  (List.range n).countP fun p => srcByte s p == b && countedAt s p

theorem occurrencesBelow_srclen (s : State) (b : Byte) :
    occurrencesBelow s b s.srclen.toNat = occurrences s b.toNat := by
  rw [occurrencesBelow, occurrences, ← List.countP_eq_length_filter]
  refine List.countP_congr fun p _ => ?_
  simp [BitVec.toNat_inj]

/-- A position at its place in its chunk is counted where no byte of the chunk up to it is zero. -/
theorem countedAt_chunk (s : State) (k : Nat) {j : Nat} (hj : j < s.cfg.chunk) :
    countedAt s (s.cfg.chunk * k + j) =
      (List.range (j + 1)).all fun i => srcByte s (s.cfg.chunk * k + i) != 0#8 := by
  rw [countedAt, Nat.mul_add_mod, Nat.mod_eq_of_lt hj, Nat.mul_add_div (chunk_pos s.cfg), Nat.div_eq_of_lt hj,
    Nat.add_zero k, Nat.mul_comm k]

theorem countedAt_of_zero {s : State} {p : Nat} (h : srcByte s p = 0#8) : countedAt s p = false := by
  rw [countedAt, List.all_eq_false]
  exact ⟨p % s.cfg.chunk, by simp, by simp [Nat.div_add_mod', h]⟩

/-- The positions of a sequence that hold `b` with no zero up to them are the places of `b` before its first zero. -/
theorem countP_range_eq_count_takeWhile (f : Nat → Byte) (b : Byte) (n : Nat) :
    (List.range n).countP (fun j => f j == b && (List.range (j + 1)).all fun i => f i != 0#8) =
      (((List.range n).map f).takeWhile (· != 0#8)).count b := by
  induction n generalizing f with
  | zero => rfl
  | succ n ih =>
    have hall : ∀ j, ((List.range (j + 1 + 1)).all fun i => f i != 0#8) =
        (f 0 != 0#8 && (List.range (j + 1)).all fun i => f (i + 1) != 0#8) := fun j => by
      rw [List.range_succ_eq_map, List.all_cons, List.all_map]
      rfl
    rw [List.range_succ_eq_map, List.countP_cons, List.countP_map, List.map_cons, List.map_map, List.takeWhile_cons]
    cases h0 : f 0 != 0#8
    · simp [Function.comp_def, hall, h0]
    · have htail := ih fun i => f (i + 1)
      simp only [Function.comp_def, hall, h0, Bool.true_and, htail]
      simp [List.count_cons, bne_iff_ne.1 h0]

/-- One chunk more adds the bytes the scan of the chunk counts. -/
theorem occurrencesBelow_chunk (s : State) (b : Byte) (k : Nat) :
    occurrencesBelow s b (s.cfg.chunk * (k + 1)) =
      occurrencesBelow s b (s.cfg.chunk * k) +
        ((memRead (s.cfg.chunk * k) s.cfg.chunk s).takeWhile (· != 0#8)).count b := by
  rw [memRead_eq_map_srcByte, ← countP_range_eq_count_takeWhile, occurrencesBelow, Nat.mul_succ, List.range_add,
    List.countP_append, List.countP_map, occurrencesBelow]
  congr 1
  refine List.countP_congr fun j hj => ?_
  rw [Function.comp, countedAt_chunk s k (List.mem_range.1 hj)]

/-- Positions past the end of the source are not counted (R113). -/
theorem occurrencesBelow_of_end {s : State} (b : Byte) {n : Nat} (h : s.srclen.toNat ≤ n) :
    occurrencesBelow s b n = occurrences s b.toNat := by
  obtain ⟨m, rfl⟩ := Nat.exists_eq_add_of_le h
  have hnone : ((List.range m).map (s.srclen.toNat + ·)).countP (fun p => srcByte s p == b && countedAt s p) = 0 := by
    rw [List.countP_map, List.countP_eq_zero]
    intro j _
    simp [countedAt_of_zero (srcByte_of_end (Nat.le_add_right s.srclen.toNat j))]
  rw [← occurrencesBelow_srclen, occurrencesBelow, List.range_add, List.countP_append, hnone]
  rfl

theorem occurrencesBelow_le (s : State) (b : Byte) (n : Nat) : occurrencesBelow s b n ≤ occurrences s b.toNat := by
  rw [← occurrencesBelow_of_end b (Nat.le_max_left s.srclen.toNat n)]
  exact (List.range_sublist.2 (Nat.le_max_right _ _)).countP_le

theorem occurrences_le (s : State) (sym : Nat) : occurrences s sym ≤ s.srclen.toNat := by
  simpa [occurrences] using List.length_filter_le _ (List.range s.srclen.toNat)

/-! ### The loop of FREQ -/

theorem chunkCount_le_iff {s : State} {k : Nat} : chunkCount s ≤ k ↔ s.srclen.toNat ≤ s.cfg.chunk * k :=
  ceilDiv_le_iff_le_mul (chunk_pos s.cfg)

/-- From `s` to `t` the loop of FREQ has read the first `k` chunks. -/
structure Scanned (s : State) (k : Nat) (t : State) : Prop where
  chunks : k ≤ chunkCount s
  counts : ∀ b : Byte, (getCount t.nodes.count b.toNat).toInt =
    (getCount s.nodes.count b.toNat).toInt + occurrencesBelow s b (s.cfg.chunk * k)
  frame : t = { s with
    nodes := { s.nodes with count := t.nodes.count }, buf := t.buf, srcpos := narrowSize (s.cfg.chunk * k) }

/-- Every byte FREQ counts has room in its count. -/
def HasRoom (s : State) : Prop :=
  ∀ b : Byte, (getCount s.nodes.count b.toNat).toInt + occurrences s b.toNat ≤ cntMax

theorem Scanned.start {s : State} (h : s.srcpos = 0#64) : Scanned s 0 s where
  chunks := Nat.zero_le _
  counts b := by simp [occurrencesBelow]
  frame := by
    have hpos : narrowSize (s.cfg.chunk * 0) = s.srcpos := by rw [h]; exact narrowSize_of_toNat 0#64
    rw [hpos]

/-- The loop stops only when all chunks are read. -/
theorem Scanned.all_of_end {s t : State} {k : Nat} (h : Scanned s k t) (hend : s.srclen.toNat ≤ s.cfg.chunk * k) :
    k = chunkCount s := Nat.le_antisymm h.chunks (chunkCount_le_iff.2 hend)

/-- One pass of the loop: no count overflows, and one chunk more is read. -/
theorem Scanned.pass {s t : State} {k : Nat} (hroom : HasRoom s) (h : Scanned s k t)
    (hmore : s.cfg.chunk * k < s.srclen.toNat) :
    (scanChunk (readChunk (s.cfg.chunk * k) t).buf t.nodes.count).2 = false ∧
      Scanned s (k + 1) (countChunk (readChunk (s.cfg.chunk * k) t)) := by
  have hcfg : t.cfg = s.cfg := by rw [h.frame]
  have hbuf : (readChunk (s.cfg.chunk * k) t).buf = memRead (s.cfg.chunk * k) s.cfg.chunk s := by
    rw [readChunk_buf, hcfg]
    exact memRead_congr (by rw [h.frame]) (by rw [h.frame]) _ _
  have hadds : ∀ b : Byte, (getCount t.nodes.count b.toNat).toInt +
      ((memRead (s.cfg.chunk * k) s.cfg.chunk s).takeWhile (· != 0#8)).count b =
      (getCount s.nodes.count b.toNat).toInt + occurrencesBelow s b (s.cfg.chunk * (k + 1)) := fun b => by
    rw [h.counts, occurrencesBelow_chunk]
    omega
  obtain ⟨hflag, hcounts⟩ := scanChunk_counts (memRead (s.cfg.chunk * k) s.cfg.chunk s) t.nodes.count fun b => by
    have := hroom b
    have := occurrencesBelow_le s b (s.cfg.chunk * (k + 1))
    rw [hadds]
    omega
  rw [hbuf]
  refine ⟨hflag, ?_, fun b => ?_, ?_⟩
  · exact Nat.lt_of_not_le fun hle => Nat.not_le.2 hmore (chunkCount_le_iff.1 hle)
  · rw [← hadds, ← hcounts, countChunk, hbuf]
    rfl
  · rw [h.frame]
    rfl

/-- The loop of FREQ reads all chunks, given as many passes as there are bytes left. -/
theorem freqLoop_scans {s t : State} {k fuel : Nat} (hroom : HasRoom s) (h : Scanned s k t)
    (hfuel : s.srclen.toNat ≤ s.cfg.chunk * k + fuel) :
    ∃ u, freqLoop fuel (s.cfg.chunk * k) t = .go u ∧ Scanned s (chunkCount s) u := by
  induction fuel generalizing k t with
  | zero => exact ⟨t, rfl, h.all_of_end hfuel ▸ h⟩
  | succ fuel ih =>
    have hlen : t.srclen = s.srclen := by rw [h.frame]
    have hcfg : t.cfg = s.cfg := by rw [h.frame]
    rw [freqLoop_succ, hlen, hcfg]
    by_cases hend : s.srclen.toNat ≤ s.cfg.chunk * k
    · exact ⟨t, if_pos hend, h.all_of_end hend ▸ h⟩
    · obtain ⟨hflag, hpass⟩ := h.pass hroom (Nat.lt_of_not_le hend)
      have hstep := chunk_pos s.cfg
      rw [if_neg hend, readChunk_nodes, hflag, if_neg Bool.false_ne_true, ← Nat.mul_succ]
      exact ih hpass (by rw [Nat.mul_succ]; omega)

/-- FREQ from position 0 completes where the counts have room, with all chunks read (R112). -/
theorem execFreq_scans {s : State} (hpos : s.srcpos = 0#64) (hroom : HasRoom s) :
    ∃ u, exec .freq s = .next (setPc .build u) ∧ Scanned s (chunkCount s) u := by
  obtain ⟨u, hloop, hu⟩ := freqLoop_scans (fuel := s.srclen.toNat) hroom (.start hpos) (Nat.le_add_left _ _)
  refine ⟨u, ?_, hu⟩
  rw [exec, execFreq, hpos, BitVec.toNat_zero, Nat.sub_zero]
  exact congrArg (Flow.endPhase .build) hloop

/-- INIT's counts have room for any source FREQ may be run on (R111). -/
theorem hasRoom_of_initial_counts {s : State} (hlen : s.srclen.toNat ≤ 2 ^ 31 - 2)
    (h : ∀ i : Nat, i < 512 → getCount s.nodes.count i = if i = 0 then 1#32 else 0#32) : HasRoom s := by
  intro b
  have hb : b.toNat < 512 := by have := b.isLt; omega
  have hone : (getCount s.nodes.count b.toNat).toInt ≤ 1 := by
    rw [h _ hb]
    split <;> decide
  have := occurrences_le s b.toNat
  rw [cntMax]
  omega

theorem freqFrame_execFreq {s t : State} (h : exec .freq s = .next t) : FreqFrame s t :=
  execFreq_leads (freqFrame_rule s) (fun _ hu => ⟨congrArg (setPc .build) hu.1, hu.2⟩) h ⟨rfl, fun _ _ => rfl⟩

/-- Settles O22: the counts of the loop's invariant after the last chunk; the terminator's count and those of the
internal slots are in FREQ's frame. -/
theorem freqCountsTheBytesBeforeAZero : Obligations.FreqCountsTheBytesBeforeAZero := by
  intro s hpos hlen hinit
  obtain ⟨u, hexec, hu⟩ := execFreq_scans hpos (hasRoom_of_initial_counts hlen hinit)
  obtain ⟨-, hkept⟩ := freqFrame_execFreq hexec
  refine ⟨setPc .build u, hexec, fun sym hlow hhigh => ?_, ?_, fun i hlow hhigh => ?_, ?_⟩
  · have hsym : (BitVec.ofNat 8 sym).toNat = sym := by rw [BitVec.toNat_ofNat]; omega
    have hzero : getCount s.nodes.count sym = 0#32 := by rw [hinit sym (by omega), if_neg (by omega)]
    have hcount := hu.counts (BitVec.ofNat 8 sym)
    rw [occurrencesBelow_of_end _ (chunkCount_le_iff.1 le_rfl), hsym, hzero, BitVec.toInt_zero, Int.zero_add] at hcount
    exact hcount
  · rw [hkept 0 (.inl rfl), hinit 0 (by decide), if_pos rfl]
  · rw [hkept i (.inr hlow), hinit i hhigh, if_neg (by omega)]
  · conv_lhs => rw [hu.frame]
    rfl

end Sys2Proof.Machine

/-! SUPPORT. Proofs for the family of spec/41_tree_builder.md: SelectMin's order (O24), the merge (O25), the loop of BUILD
from any table with its internal slots inactive (O26, O28), the tree and the codes of a single symbol (O29). -/

namespace Sys2Proof.Machine

/-! ### The order of SelectMin -/

/-- The order of R121 on pairs of an id and its count: the smaller count first, the lower id among equals. -/
def Precedes (x y : Nat × Count) : Prop := x.2.toInt < y.2.toInt ∨ (x.2.toInt = y.2.toInt ∧ x.1 ≤ y.1)

theorem Precedes.refl (x : Nat × Count) : Precedes x x := .inr ⟨rfl, le_rfl⟩

theorem Precedes.trans {x y z : Nat × Count} (h : Precedes x y) (h' : Precedes y z) : Precedes x z := by
  unfold Precedes at *
  omega

theorem Precedes.id_eq {x y : Nat × Count} (h : Precedes x y) (h' : Precedes y x) : x.1 = y.1 := by
  unfold Precedes at *
  omega

/-- A step of the scan keeps the first of the best and the entry, since the best is the one with the lower id. -/
theorem betterOf_precedes {excl : Option Nat} {best : Option (Nat × Count)} {e : Count × Nat} {x : Nat × Count}
    (h : betterOf excl best e = some x) (hid : ∀ b, best = some b → b.1 ≤ e.2) :
    (∀ b, best = some b → Precedes x b) ∧ (isActive e.1 = true ∧ excl ≠ some e.2 → Precedes x (e.2, e.1)) := by
  unfold betterOf at h
  split at h
  · cases best with
    | none =>
      obtain rfl := Option.some.inj h
      exact ⟨by simp, fun _ => .refl _⟩
    | some b =>
      have hb := hid b rfl
      dsimp only at h
      split at h
      next hlt =>
        obtain rfl := Option.some.inj h
        exact ⟨fun _ hb' => Option.some.inj hb' ▸ .inl hlt, fun _ => .refl _⟩
      next hge =>
        obtain rfl := Option.some.inj h
        exact ⟨fun _ hb' => Option.some.inj hb' ▸ .refl _, fun _ => by unfold Precedes; dsimp only; omega⟩
  next htake =>
    exact ⟨fun b hb => Option.some.inj (hb.symm.trans h) ▸ .refl _, fun hact => absurd hact (by simpa using htake)⟩

/-- The scan of entries with increasing ids ends with the first of all it may take. -/
theorem foldl_betterOf_precedes {excl : Option Nat} {l : List (Count × Nat)} {best : Option (Nat × Count)}
    {x : Nat × Count} (h : l.foldl (betterOf excl) best = some x) (hinc : l.Pairwise (·.2 < ·.2))
    (hid : ∀ b, best = some b → ∀ e ∈ l, b.1 ≤ e.2) :
    (∀ b, best = some b → Precedes x b) ∧
      ∀ e ∈ l, isActive e.1 = true ∧ excl ≠ some e.2 → Precedes x (e.2, e.1) := by
  induction l generalizing best with
  | nil =>
    obtain rfl : best = some x := h
    exact ⟨fun b hb => Option.some.inj hb ▸ .refl _, by simp⟩
  | cons e l ih =>
    obtain ⟨hlt, hinc⟩ := List.pairwise_cons.1 hinc
    have hstep : ∀ y, betterOf excl best e = some y → ∀ e' ∈ l, y.1 ≤ e'.2 := fun y hy e' he' => by
      rcases betterOf_eq_some hy with hb | ⟨rfl, -⟩
      · exact hid y hb e' (List.mem_cons_of_mem _ he')
      · exact (hlt e' he').le
    obtain ⟨hbest, hrest⟩ := ih h hinc hstep
    cases hy : betterOf excl best e with
    | none =>
      obtain ⟨rfl, htake⟩ := betterOf_eq_none_iff.1 hy
      exact ⟨by simp, List.forall_mem_cons.2 ⟨fun hact => absurd hact htake, hrest⟩⟩
    | some y =>
      obtain ⟨hold, hnew⟩ := betterOf_precedes hy fun b hb => hid b hb e List.mem_cons_self
      exact ⟨fun b hb => (hbest y hy).trans (hold b hb),
        List.forall_mem_cons.2 ⟨fun hact => (hbest y hy).trans (hnew hact), hrest⟩⟩

theorem zipIdx_ids_increase {α : Type} (l : List α) : l.zipIdx.Pairwise (·.2 < ·.2) := by
  rw [← List.pairwise_map (f := Prod.snd), List.zipIdx_map_snd]
  exact List.pairwise_lt_range'

/-- SelectMin answers the first, in the order of R121, of the nodes it may take. -/
theorem selectMin_eq_some_iff {excl : Option Nat} {n : NodeTable} {a : Nat} :
    selectMin excl n = some a ↔
      Selectable excl n a ∧
        ∀ j, Selectable excl n j → Precedes (a, getCount n.count a) (j, getCount n.count j) := by
  have hfirst : ∀ {a}, selectMin excl n = some a →
      ∀ j, Selectable excl n j → Precedes (a, getCount n.count a) (j, getCount n.count j) := by
    intro a h j ⟨hf, hj, hexcl, hc⟩
    obtain ⟨x, hx, rfl⟩ := Option.map_eq_some_iff.1 h
    obtain ⟨-, hleast⟩ := foldl_betterOf_precedes hx (zipIdx_ids_increase _) (by simp)
    have hcount : getCount n.count x.1 = x.2 := by
      rcases foldl_betterOf_eq_some hx with hnone | ⟨e, he, rfl, -⟩
      · cases hnone
      · exact (mem_scanned_iff.1 he).2.2
    rw [hcount]
    exact hleast (getCount n.count j, j) (mem_scanned_iff.2 ⟨hf, hj, rfl⟩) ⟨(isActive_iff _).2 hc, hexcl⟩
  refine ⟨fun h => ⟨selectable_of_selectMin h, hfirst h⟩, fun ⟨ha, hleast⟩ => ?_⟩
  cases hsel : selectMin excl n with
  | none => exact absurd ha (not_selectable_of_selectMin hsel a)
  | some a' => exact congrArg some ((hfirst hsel a ha).id_eq (hleast a' (selectable_of_selectMin hsel)))

theorem selectable_iff {excl : Option Nat} {n : NodeTable} (hf : n.nextFree.toNat ≤ 512) {i : Nat} :
    Selectable excl n i ↔ excl ≠ some i ∧ i ∈ activeBelow n n.nextFree.toNat := by
  rw [mem_activeBelow]
  exact ⟨fun ⟨hi, _, hexcl, hc⟩ => ⟨hexcl, hi, hc⟩, fun ⟨hexcl, hi, hc⟩ => ⟨hi, by omega, hexcl, hc⟩⟩

/-- Settles O24: the answer is the first in the scan's order, and no answer means that no node may be taken. -/
theorem selectMinIsTheLeastActiveNode : Obligations.SelectMinIsTheLeastActiveNode := by
  intro n excl hfree
  have hselectable : ∀ j, j < n.nextFree.toNat → some j ≠ excl → isActive (getCount n.count j) = true →
      Selectable excl n j := fun j hj hexcl hact => ⟨hj, by omega, hexcl.symm, (isActive_iff _).1 hact⟩
  refine ⟨fun a ha => ?_, fun hnone j hj hexcl => ?_⟩
  · obtain ⟨⟨haf, -, hexcl, hc⟩, hleast⟩ := selectMin_eq_some_iff.1 ha
    exact ⟨haf, hexcl.symm, (isActive_iff _).2 hc, fun j hj hne hact => hleast j (hselectable j hj hne hact)⟩
  · exact Bool.eq_false_iff.2 fun hact => not_selectable_of_selectMin hnone j (hselectable j hj hexcl hact)

/-! ### The merge -/

/-- Settles O25: a merge that answers is `Merged`, and it answers unless the sum passes CNT_MAX. -/
theorem mergeMakesTheNextInternalNode : Obligations.MergeMakesTheNextInternalNode := by
  intro n a b ha hb hne hf hca hcb
  refine ⟨merge_eq_none_iff.2, fun hsum => ?_⟩
  have hp : ActivePair n a b :=
    ⟨hne, ⟨ha, by omega⟩, ⟨hb, by omega⟩, (isActive_iff _).1 hca, (isActive_iff _).1 hcb⟩
  obtain ⟨m, hm⟩ := Option.ne_none_iff_exists'.1 fun hnone => not_lt.2 hsum (merge_eq_none_iff.1 hnone)
  have h := merged_of_merge hp hf hm
  exact ⟨m, hm, h.countNew, h.countLeft, h.countRight, h.countOther, h.leftNew, h.rightNew,
    fun i hi => ⟨h.leftOther i hi, h.rightOther i hi⟩, h.parentLeft, h.parentRight, h.parentOther, h.root, h.nextFree⟩

/-! ### When BUILD finds a pair -/

/-- BUILD finds no pair exactly where fewer than two nodes are active (R120, R125). -/
theorem selectPair_eq_none_iff {n : NodeTable} (hf : n.nextFree.toNat ≤ 512) :
    selectPair n = none ↔ (activeBelow n n.nextFree.toNat).length < 2 := by
  refine ⟨fun hsel => not_le.1 fun htwo => ?_, fun hlen => ?_⟩
  · have hunique : ∀ i ∈ activeBelow n n.nextFree.toNat, ∀ j ∈ activeBelow n n.nextFree.toNat, i = j :=
      fun i hi j hj => active_unique_of_selectPair hsel ((selectable_iff hf).2 ⟨by simp, hi⟩)
        ((selectable_iff hf).2 ⟨by simp, hj⟩)
    have hfirst := hunique _ (List.getElem_mem (Nat.lt_of_lt_of_le Nat.zero_lt_two htwo)) _ (List.getElem_mem htwo)
    exact absurd ((activeBelow_nodup n _).getElem_inj_iff.1 hfirst) Nat.zero_ne_one
  · refine Option.eq_none_iff_forall_ne_some.2 fun ⟨a, b⟩ hsel => ?_
    obtain ⟨hne, ⟨ha, -⟩, ⟨hb, -⟩, hca, hcb⟩ := activePair_of_selectPair hsel
    have hsub : [a, b] ⊆ activeBelow n n.nextFree.toNat := by simp [mem_activeBelow, ha, hb, hca, hcb]
    exact absurd (List.subperm_of_subset (by simp [hne]) hsub).length_le (not_le.2 hlen)

theorem buildLoop_of_no_pair {n : NodeTable} (h : selectPair n = none) (free : Nat) : buildLoop free n = (n, none) := by
  cases free <;> simp [buildLoop, h]

theorem buildLoop_of_full {n : NodeTable} {p : Nat × Nat} (h : selectPair n = some p) :
    buildLoop 0 n = (n, some .capacityExceeded) := by
  simp [buildLoop, h]

/-- Settles O28: where no pair is found the loop ends at once; at 512 a pair found is the error. -/
theorem buildEndsOrExceedsCapacityAtOnce : Obligations.BuildEndsOrExceedsCapacityAtOnce := by
  refine fun s => ⟨fun hf hfew => ?_, fun hfull hpair => ?_⟩
  · have hloop := buildLoop_of_no_pair ((selectPair_eq_none_iff hf).2 hfew) (512 - s.nodes.nextFree.toNat)
    rw [execBuild_of_no_error hf (by rw [hloop]), hloop]
    rfl
  · have hf : s.nodes.nextFree.toNat = 512 := by rw [hfull]; rfl
    have hsome : selectPair s.nodes ≠ none := fun hnone => by
      have := (selectPair_eq_none_iff hf.le).1 hnone
      rw [hf] at this
      omega
    obtain ⟨p, hp⟩ := Option.ne_none_iff_exists'.1 hsome
    rw [exec, execBuild, if_neg (by omega), hf, Nat.sub_self, buildLoop_of_full hp]
    rfl

/-! ### The loop from any table whose internal slots are inactive -/

theorem activeBelow_all_of_inactive {n : NodeTable} {bound : Nat} (hle : bound ≤ 512)
    (h : ∀ i, bound ≤ i → i < 512 → isActive (getCount n.count i) = false) :
    activeBelow n 512 = activeBelow n bound := by
  have hslots : (List.range' bound (512 - bound)).filter (fun i => isActive (getCount n.count i)) = [] :=
    List.filter_eq_nil_iff.2 fun i hi => by
      rw [List.mem_range'_1] at hi
      simp [h i hi.1 (by omega)]
  simp only [activeBelow]
  rw [show 512 = bound + (512 - bound) by omega, List.range_add, ← List.range'_eq_map_range, List.filter_append, hslots,
    List.append_nil]

/-- The table with the count of the next free slot cleared, which a merge overwrites. -/
def clearNext (n : NodeTable) : NodeTable := { n with count := n.count.setIfInBounds n.nextFree.toNat 0#32 }

theorem getCount_clearNext_of_ne {n : NodeTable} {i : Nat} (h : i ≠ n.nextFree.toNat) :
    getCount (clearNext n).count i = getCount n.count i := by
  simp [clearNext, getCount_set, h.symm]

/-- `activeBelow_of_merged` where the next free slot holds any inactive count: the merge does not see what it holds. -/
theorem activeBelow_of_merged_into_inactive {n m : NodeTable} {a b : Nat} (hp : ActivePair n a b)
    (h : Merged n a b m) (hf : n.nextFree.toNat < 512)
    (hnew : isActive (getCount n.count n.nextFree.toNat) = false) :
    ∃ rest : List Nat, (activeBelow n 512).Perm (a :: b :: rest) ∧
      (activeBelow m 512).Perm (n.nextFree.toNat :: rest) ∧
      ∀ i ∈ rest, getCount m.count i = getCount n.count i := by
  have hzero : getCount (clearNext n).count n.nextFree.toNat = 0#32 := by simp [clearNext, getCount_set, hf]
  have hactive : activeBelow (clearNext n) 512 = activeBelow n 512 := List.filter_congr fun i _ => by
    by_cases hi : i = n.nextFree.toNat
    · rw [hi, hzero, hnew]
      decide
    · rw [getCount_clearNext_of_ne hi]
  have ha := getCount_clearNext_of_ne hp.left_lt.1.ne
  have hb := getCount_clearNext_of_ne hp.right_lt.1.ne
  have hp' : ActivePair (clearNext n) a b :=
    { hp with left_active := ha ▸ hp.left_active, right_active := hb ▸ hp.right_active }
  have h' : Merged (clearNext n) a b m :=
    { h with
      sum_le := by rw [ha, hb]; exact h.sum_le
      countNew := by rw [ha, hb]; exact h.countNew
      countLeft := by rw [ha]; exact h.countLeft
      countRight := by rw [hb]; exact h.countRight
      countOther := fun i (hi : i ≠ n.nextFree.toNat) hia hib => by
        rw [getCount_clearNext_of_ne hi, h.countOther i hi hia hib] }
  obtain ⟨rest, hn, hm, hrest⟩ := activeBelow_of_merged hp' h' hf hzero
  rw [hactive] at hn
  refine ⟨rest, hn, hm, fun i hi => (hrest i hi).trans (getCount_clearNext_of_ne ?_)⟩
  rintro rfl
  have hmem := mem_activeBelow.1 (hn.mem_iff.2 (List.mem_cons_of_mem _ (List.mem_cons_of_mem _ hi)))
  exact Bool.false_ne_true (hnew.symm.trans ((isActive_iff _).2 hmem.2))

/-- What the loop of BUILD keeps from a table `o` whose internal slots are inactive: each merge takes one active node
off and one slot, and the weight of the active nodes stays (R122, R123). -/
structure Merging (o n : NodeTable) : Prop where
  range : 256 ≤ n.nextFree.toNat ∧ n.nextFree.toNat ≤ 512
  activeCount : (activeBelow n 512).length + n.nextFree.toNat = (activeBelow o 256).length + 256
  someActive : 1 ≤ (activeBelow n 512).length
  weight : ((activeBelow n 512).map fun i => (getCount n.count i).toInt).sum = leafWeight o
  unused : ∀ i : Nat, n.nextFree.toNat ≤ i → i < 512 → isActive (getCount n.count i) = false

theorem merging_of_inactive_slots {n : NodeTable} (hf : n.nextFree = 256#10)
    (hslots : ∀ i : Nat, 256 ≤ i → i < 512 → isActive (getCount n.count i) = false)
    (hsome : 1 ≤ (activeBelow n 256).length) : Merging n n := by
  have hfree : n.nextFree.toNat = 256 := by rw [hf]; rfl
  have hall := activeBelow_all_of_inactive (by omega) hslots
  constructor
  case range => omega
  case activeCount => rw [hall, hfree]
  case someActive => rwa [hall]
  case weight => rw [hall, leafWeight]
  case unused => exact fun i hi => hslots i (by omega)

theorem merging_of_merged {o n m : NodeTable} {a b : Nat} (hg : Merging o n) (hp : ActivePair n a b)
    (hf : n.nextFree.toNat < 512) (h : Merged n a b m) : Merging o m := by
  obtain ⟨rest, hn, hm, hrest⟩ := activeBelow_of_merged_into_inactive hp h hf (hg.unused _ le_rfl hf)
  have hnext := h.nextFree
  have hnlen := hn.length_eq
  have hmlen := hm.length_eq
  simp only [List.length_cons] at hnlen hmlen
  constructor
  case range =>
    have := hg.range
    omega
  case activeCount =>
    have := hg.activeCount
    omega
  case someActive => omega
  case weight =>
    have hkept : (rest.map fun i => (getCount m.count i).toInt) = rest.map fun i => (getCount n.count i).toInt :=
      List.map_congr_left fun i hi => by rw [hrest i hi]
    rw [← hg.weight, (hm.map _).sum_eq, (hn.map _).sum_eq, List.map_cons, List.map_cons, List.map_cons, hkept,
      List.sum_cons, List.sum_cons, List.sum_cons, h.countNew, add_assoc]
  case unused =>
    intro i hi h512
    obtain ⟨-, ⟨haf, -⟩, ⟨hbf, -⟩, -, -⟩ := hp
    rw [h.countOther i (by omega) (by omega) (by omega)]
    exact hg.unused i (by omega) h512

/-- The loop of BUILD ends with no error and one active node (R123): a free slot is left for every pair, and no sum
passes the total weight. -/
theorem buildLoop_of_merging {o n : NodeTable} (hg : Merging o n) (hweight : leafWeight o ≤ cntMax) :
    (buildLoop (512 - n.nextFree.toNat) n).2 = none ∧
    Merging o (buildLoop (512 - n.nextFree.toNat) n).1 ∧
    (activeBelow (buildLoop (512 - n.nextFree.toNat) n).1 512).length = 1 := by
  have hrange := hg.range
  obtain ⟨free, ⟨hend, hfree⟩, hends⟩ := buildLoop_ends
    (I := fun free m => Merging o m ∧ m.nextFree.toNat + free = 512)
    (fun free m a b m' ⟨hgm, hfm⟩ hsel hmerge => by
      have hp := activePair_of_selectPair hsel
      have hm := merged_of_merge hp (by omega) hmerge
      exact ⟨merging_of_merged hgm hp (by omega) hm, by rw [hm.nextFree]; omega⟩)
    (512 - n.nextFree.toNat) ⟨hg, by omega⟩
  rcases hends with ⟨herr, hsel⟩ | ⟨-, rfl, a, b, hsel⟩ | ⟨-, a, b, hsel, hmerge⟩
  · refine ⟨herr, hend, le_antisymm ?_ hend.someActive⟩
    rw [activeBelow_all_of_inactive hend.range.2 hend.unused]
    exact Nat.le_of_lt_succ ((selectPair_eq_none_iff hend.range.2).1 hsel)
  · have := length_le_of_activePair (activePair_of_selectPair hsel)
    have := hend.activeCount
    have := activeBelow_length_le o 256
    omega
  · have hover := merge_eq_none_iff.1 hmerge
    have hle := pair_weight_le (activePair_of_selectPair hsel)
    rw [hend.weight] at hle
    omega

/-- Settles O26: each merge takes one active node and one slot, so one node is left after `k - 1` merges. -/
theorem buildMergesUntilOneNodeIsActive : Obligations.BuildMergesUntilOneNodeIsActive := by
  intro s k hfree hslots hk hk1 hweight
  have hstart := merging_of_inactive_slots hfree hslots (hk ▸ hk1)
  obtain ⟨herr, hend, hone⟩ := buildLoop_of_merging hstart hweight
  refine ⟨_, execBuild_of_no_error hstart.range.2 herr, rfl, ?_, hone⟩
  have hcount := hend.activeCount
  rw [setPc_nodes]
  dsimp only
  omega

/-! ### The codes of a tree of one merge (R150) -/

theorem codeOf_of_no_parent {n : NodeTable} {i : Nat} (h : getLink n.parent i = noNode) : codeOf n i = .ok [] := by
  rw [codeOf, walkUp, if_pos h]

theorem codeOf_of_root_child {n : NodeTable} {i p : Nat} (hp : p < 512) (h : getLink n.parent i = p)
    (hroot : getLink n.parent p = noNode) : codeOf n i = .ok [getLink n.left p != (i : Int)] := by
  have hid : isNodeId (p : Int) = true := isNodeId_iff.2 (by omega)
  have hne : (p : Int) ≠ noNode := by simp only [noNode]; omega
  rw [codeOf, walkUp, h, if_neg hne]
  simp only [hid, if_true, Int.toNat_natCast]
  rw [walkUp, if_pos hroot]

theorem codesOf_eq_map {n : NodeTable} {f : Nat → List Bool} {l : List Nat} (h : ∀ i ∈ l, codeOf n i = .ok (f i)) :
    codesOf n l = .ok (l.map f) := by
  induction l with
  | nil => rfl
  | cons i l ih =>
    obtain ⟨hi, hl⟩ := List.forall_mem_cons.1 h
    simp [codesOf, hi, ih hl]

/-- CODEGEN where each symbol's walk is known. -/
theorem execCodegen_of_codes {s : State} {f : Nat → List Bool} (h : ∀ i, i < 256 → codeOf s.nodes i = .ok (f i)) :
    ∃ u, exec .codegen s = .next u ∧ ∀ b : Byte, getCode u.code b = f b.toNat := by
  have hcodes := codesOf_eq_map (l := List.range 256) fun i hi => h i (List.mem_range.1 hi)
  refine ⟨_, by rw [exec, execCodegen, hcodes], fun b => ?_⟩
  rw [setPc_code]
  dsimp only
  rw [getCode_tabulate]
  simp [b.isLt]

/-! ### A single symbol (R128) -/

theorem parent_of_counted {n : NodeTable} (h : Counted n) {i : Nat} (hi : i < 512) : getLink n.parent i = noNode := by
  rw [h.startLinks]
  exact getLink_replicate _ hi

/-- The terminator counts once, so it comes first whatever the count of the one symbol. -/
theorem selectPair_of_single_symbol {n : NodeTable} {x : Nat} (h : Counted n) (hx : 1 ≤ x)
    (hactive : activeBelow n 256 = [0, x]) : selectPair n = some (0, x) := by
  have hfree : n.nextFree.toNat = 256 := by rw [h.startLinks]; rfl
  have hselectable : ∀ excl i, Selectable excl n i ↔ excl ≠ some i ∧ (i = 0 ∨ i = x) := fun excl i => by
    rw [selectable_iff (by omega), hfree, hactive]
    simp
  have hpos : 0 < (getCount n.count x).toInt := (mem_activeBelow.1 (hactive ▸ by simp : x ∈ activeBelow n 256)).2
  have hzeroFirst : Precedes (0, getCount n.count 0) (x, getCount n.count x) := by
    have := h.terminator
    unfold Precedes
    dsimp only
    omega
  have hleft : selectMin none n = some 0 := by
    refine selectMin_eq_some_iff.2 ⟨(hselectable _ _).2 (by simp), fun j hj => ?_⟩
    rcases ((hselectable _ _).1 hj).2 with rfl | rfl
    · exact .refl _
    · exact hzeroFirst
  have hright : selectMin (some 0) n = some x := by
    have h0x : 0 ≠ x := by omega
    refine selectMin_eq_some_iff.2 ⟨(hselectable _ _).2 (by simp [h0x]), fun j hj => ?_⟩
    obtain ⟨hexcl, rfl | rfl⟩ := (hselectable _ _).1 hj
    · exact absurd rfl hexcl
    · exact .refl _
  simp [selectPair, hleft, hright]

/-- From the leaves 0 and `x` BUILD makes the one merge of R128. -/
theorem buildLoop_of_single_symbol {n : NodeTable} {x : Nat} (h : Counted n) (hx : 1 ≤ x)
    (hactive : activeBelow n 256 = [0, x]) :
    ∃ m, buildLoop (512 - n.nextFree.toNat) n = (m, none) ∧ ActivePair n 0 x ∧ Merged n 0 x m := by
  have hfree : n.nextFree = 256#10 := by rw [h.startLinks]; rfl
  have hf : n.nextFree.toNat = 256 := by rw [hfree]; rfl
  have hstart : Merging n n := merging_of_inactive_slots hfree
    (fun i h1 h2 => by rw [h.slots i h1 h2]; decide) (by simp [hactive])
  have hsel := selectPair_of_single_symbol h hx hactive
  have hp := activePair_of_selectPair hsel
  have hsum := pair_weight_le hp
  rw [hstart.weight] at hsum
  obtain ⟨m, hm⟩ := Option.ne_none_iff_exists'.1 fun hnone =>
    not_lt.2 (hsum.trans h.bounded) (merge_eq_none_iff.1 hnone)
  have hmerged := merged_of_merge hp (by omega) hm
  have hend := merging_of_merged hstart hp (by omega) hmerged
  have hnoPair : selectPair m = none := by
    have hcount := hend.activeCount
    rw [hactive, hmerged.nextFree, hf] at hcount
    rw [selectPair_eq_none_iff hend.range.2, ← activeBelow_all_of_inactive hend.range.2 hend.unused]
    simp only [List.length_cons, List.length_nil] at hcount
    omega
  refine ⟨m, ?_, hp, hmerged⟩
  rw [show 512 - n.nextFree.toNat = 255 + 1 by omega, buildLoop]
  simp [hsel, hm, buildLoop_of_no_pair hnoPair]

/-- The codes of R128: one bit for the terminator and for `x`, none for an absent symbol. -/
def singleSymbolCode (x i : Nat) : List Bool := if i = 0 then [false] else if i = x then [true] else []

theorem codeOf_of_single_symbol {n m : NodeTable} {x : Nat} (h : Counted n) (hp : ActivePair n 0 x)
    (hm : Merged n 0 x m) {i : Nat} (hi : i < 256) : codeOf m i = .ok (singleSymbolCode x i) := by
  have hf : n.nextFree.toNat = 256 := by rw [h.startLinks]; rfl
  have hx : x ≠ 0 := hp.ne.symm
  have hparent : ∀ j, j < 512 → j ≠ 0 → j ≠ x → getLink m.parent j = noNode := fun j hj h0 hjx =>
    (hm.parentOther j h0 hjx).trans (parent_of_counted h hj)
  have hroot : getLink m.parent 256 = noNode := hparent 256 (by omega) (by omega) (by have := hp.right_lt; omega)
  have hleft : getLink m.left 256 = 0 := by simpa [hf] using hm.leftNew
  by_cases h0 : i = 0
  · subst h0
    rw [codeOf_of_root_child (p := 256) (by omega) (by rw [hm.parentLeft, hf]) hroot, hleft]
    simp [singleSymbolCode]
  · by_cases hix : i = x
    · subst hix
      rw [codeOf_of_root_child (p := 256) (by omega) (by rw [hm.parentRight, hf]) hroot, hleft]
      have hne : (0 : Int) ≠ i := by omega
      simp [singleSymbolCode, hx, hne]
    · rw [codeOf_of_no_parent (hparent i (by omega) h0 hix)]
      simp [singleSymbolCode, h0, hix]

/-- Settles O29: BUILD makes the one merge, and each symbol's walk up it is at most one step. -/
theorem singleSymbolGetsOneBitCodes : Obligations.SingleSymbolGetsOneBitCodes := by
  intro s x hx hx256 hcounted hactive
  obtain ⟨m, hloop, hp, hm⟩ := buildLoop_of_single_symbol hcounted hx hactive
  have hf : s.nodes.nextFree.toNat = 256 := by rw [hcounted.startLinks]; rfl
  have hbuild := execBuild_of_no_error (s := s) (by omega) (by rw [hloop])
  rw [hloop] at hbuild
  obtain ⟨u, hu, hcode⟩ := execCodegen_of_codes (s := setPc .serialize { s with nodes := m })
    fun i hi => codeOf_of_single_symbol hcounted hp hm hi
  refine ⟨_, u, hbuild, by simpa [hf] using hm.leftNew, by simpa [hf] using hm.rightNew, by simpa [hf] using hm.root,
    hu, ?_, ?_⟩
  · simp [hcode, singleSymbolCode]
  · rw [hcode, BitVec.toNat_ofNat, Nat.mod_eq_of_lt hx256]
    simp [singleSymbolCode, Nat.ne_of_gt hx]

end Sys2Proof.Machine

/-! SUPPORT. Proofs for the family of spec/42_tree_codec.md: the tree block SERIALIZE appends (O31), what DESERIALIZE
loads (O32), and that the one reads back what the other wrote (O33). -/

namespace Sys2Proof.Machine

/-! ### The tree block (R86) -/

/-- The bytes of the tree block of a table. -/
def treeBlock (w : IdxWidth) (e : Endian) (n : NodeTable) : List Byte := ((treeFields n).map (idxBytes w e)).flatten

theorem treeBlock_length (w : IdxWidth) (e : Endian) (n : NodeTable) : (treeBlock w e n).length = 769 * w.bytes := by
  rw [treeBlock, idxFields_length, treeFields_length]

/-- Piece `j` of pieces of one length, laid end to end. -/
theorem take_drop_flatten_of_length {α : Type} {m j : Nat} {L : List (List α)} {l : List α}
    (hL : ∀ x ∈ L, x.length = m) (hj : L[j]? = some l) : (L.flatten.drop (j * m)).take m = l := by
  induction L generalizing j with
  | nil => simp at hj
  | cons x L ih =>
    obtain ⟨hx, hL⟩ := List.forall_mem_cons.1 hL
    rw [List.flatten_cons]
    cases j with
    | zero =>
      obtain rfl : x = l := by simpa using hj
      rw [Nat.zero_mul, List.drop_zero, List.take_left' hx]
    | succ j =>
      rw [Nat.succ_mul, Nat.add_comm, ← List.drop_drop, List.drop_left' hx]
      exact ih hL (by simpa using hj)

/-- Field `3·(i − 256) + k` is link `k` of slot `i`: left, right, parent (R86). -/
theorem treeFields_slot {n : NodeTable} {i k : Nat} {v : Int} (h256 : 256 ≤ i) (h512 : i < 512)
    (hv : [getLink n.left i, getLink n.right i, getLink n.parent i][k]? = some v) :
    (treeFields n)[3 * (i - 256) + k]? = some v := by
  obtain ⟨hk : k < 3, -⟩ := List.getElem?_eq_some_iff.1 hv
  obtain ⟨j, rfl⟩ := Nat.exists_eq_add_of_le h256
  have hlen := treeFields_length n
  rw [treeFields, List.length_append, List.length_singleton] at hlen
  have htriple := take_drop_flatten_of_length (m := 3) (j := j)
    (L := (List.range 256).map fun j =>
      [getLink n.left (256 + j), getLink n.right (256 + j), getLink n.parent (256 + j)])
    (l := [getLink n.left (256 + j), getLink n.right (256 + j), getLink n.parent (256 + j)])
    (by simp) (by rw [List.getElem?_map, List.getElem?_range (by omega), Option.map_some])
  rw [← htriple, ← List.flatMap_def, List.getElem?_take_of_lt hk, List.getElem?_drop] at hv
  rw [Nat.add_sub_cancel_left, Nat.mul_comm, treeFields, List.getElem?_append_left (by omega), hv]

theorem treeFields_root (n : NodeTable) : (treeFields n)[768]? = some n.root := by
  have hlast : (treeFields n).getLast? = some n.root := List.getLast?_concat
  rwa [List.getLast?_eq_getElem?, treeFields_length] at hlast

/-- Field `j` of the block stands at `j·W`. -/
theorem treeBlock_field (w : IdxWidth) (e : Endian) {n : NodeTable} {j : Nat} {v : Int}
    (h : (treeFields n)[j]? = some v) : ((treeBlock w e n).drop (j * w.bytes)).take w.bytes = idxBytes w e v :=
  take_drop_flatten_of_length (by simp) (by simp [h])

/-- The offset of link `k` of slot `i`, as R86 writes it. -/
theorem slot_offset (W i k : Nat) : (3 * (i - 256) + k) * W = 3 * W * (i - 256) + k * W := by ring

theorem treeBlock_slot (w : IdxWidth) (e : Endian) {n : NodeTable} {i k : Nat} {v : Int} (h256 : 256 ≤ i)
    (h512 : i < 512) (hv : [getLink n.left i, getLink n.right i, getLink n.parent i][k]? = some v) :
    ((treeBlock w e n).drop (3 * w.bytes * (i - 256) + k * w.bytes)).take w.bytes = idxBytes w e v := by
  rw [← slot_offset, treeBlock_field w e (treeFields_slot h256 h512 hv)]

/-- The root field ends the block. -/
theorem treeBlock_root (w : IdxWidth) (e : Endian) (n : NodeTable) :
    (treeBlock w e n).drop (768 * w.bytes) = idxBytes w e n.root := by
  rw [← treeBlock_field w e (treeFields_root n), List.take_of_length_le]
  rw [List.length_drop, treeBlock_length]
  omega

/-! ### SERIALIZE (R135) -/

/-- From `s` to `t` DSTLEN has grown by as many bytes as the destination, while the sum fits (R56). -/
def DstlenFollows (s t : State) : Prop :=
  s.dst.length ≤ t.dst.length ∧ (s.dstlen.toNat + (t.dst.length - s.dst.length) < 2 ^ 64 →
    t.dstlen.toNat = s.dstlen.toNat + (t.dst.length - s.dst.length))

theorem dstlenFollows_rule (s : State) : AppendRule (DstlenFollows s) fun _ => True where
  append v t h := by
    obtain ⟨hle, hlen⟩ := h
    rw [DstlenFollows, appendBytes_dst, extend_length, appendBytes_dstlen, popAnswer_dst, popAnswer_dstlen]
    refine ⟨by omega, fun hfits => ?_⟩
    rw [hlen (by omega), narrowSize_toNat (by omega)]
    omega
  appendFails _ _ := trivial

theorem memWrites_dstlen {vs : List (List Byte)} {s t : State} (h : memWrites vs s = .go t) : DstlenFollows s t := by
  have hends := memWrites_ends (dstlenFollows_rule s) vs (s := s) ⟨le_rfl, by simp⟩
  rwa [h] at hends

/-- SERIALIZE with every append answered true. -/
theorem execSerialize_of_allTrue {s : State} (h : AllAnswersTrue s) :
    ∃ t, exec .serialize s = .next (setPc .codegen t) ∧
      t.dst = Memory.extend s.dst (treeBlock s.cfg.width s.cfg.endian s.nodes) ∧ DstlenFollows s t ∧
      t = { s with dst := t.dst, dstlen := t.dstlen, answers := s.answers.drop 769 } := by
  obtain ⟨t, ht, hdst, -, hframe⟩ :=
    memWrites_of_allTrue ((treeFields s.nodes).map (idxBytes s.cfg.width s.cfg.endian)) h
  rw [List.length_map, treeFields_length] at hframe
  exact ⟨t, by rw [exec, execSerialize, ht, go_endPhase], hdst, memWrites_dstlen ht, hframe⟩

/-- Settles O31: what is appended is the tree block, whose field `j` stands at `j·W`. -/
theorem serializeAppendsTheTreeBlock : Obligations.SerializeAppendsTheTreeBlock := by
  intro s hs
  obtain ⟨t, hexec, hdst, ⟨-, hdstlen⟩, hframe⟩ := execSerialize_of_allTrue hs
  rw [hdst, extend_length, treeBlock_length, Nat.add_sub_cancel_left] at hdstlen
  refine ⟨_, treeBlock s.cfg.width s.cfg.endian s.nodes, hexec, ?_, treeBlock_length _ _ _,
    fun n h256 h512 => ⟨?_, ?_, ?_⟩, treeBlock_root _ _ _, hdstlen, ?_⟩
  · rw [setPc_dst, hdst, bytes_extend]
  · simpa using treeBlock_slot s.cfg.width s.cfg.endian h256 h512 (k := 0) rfl
  · simpa using treeBlock_slot s.cfg.width s.cfg.endian h256 h512 (k := 1) rfl
  · exact treeBlock_slot s.cfg.width s.cfg.endian h256 h512 (k := 2) rfl
  · conv_lhs => rw [hframe]
    rfl

/-! ### DESERIALIZE (R137) -/

theorem execDeserialize_of_short {s : State} (h : s.srclen.toNat < s.srcpos.toNat + s.cfg.treeBytes) :
    exec .deserialize s = .next (takeError .insufficientData s) := by
  rw [exec, execDeserialize, if_pos h, raise, raised_endPhase]

theorem execDeserialize_of_block {s : State} (h : s.srcpos.toNat + s.cfg.treeBytes ≤ s.srclen.toNat) :
    exec .deserialize s =
      .next (setPc .unpack (setPos (s.srcpos.toNat + s.cfg.treeBytes) (loadTree s.srcpos.toNat s))) := by
  rw [exec, execDeserialize, if_neg (not_lt.2 h), go_endPhase]

@[simp] theorem loadTree_left (pos : Nat) (s : State) : (loadTree pos s).nodes.left = loadedLinks 0 pos s := rfl
@[simp] theorem loadTree_right (pos : Nat) (s : State) : (loadTree pos s).nodes.right = loadedLinks 1 pos s := rfl
@[simp] theorem loadTree_parent (pos : Nat) (s : State) : (loadTree pos s).nodes.parent = loadedLinks 2 pos s := rfl
@[simp] theorem loadTree_root (pos : Nat) (s : State) : (loadTree pos s).nodes.root = readField pos 768 s := rfl

theorem getLink_loadedLinks_leaf (k pos : Nat) (s : State) {i : Nat} (h : i < 256) :
    getLink (loadedLinks k pos s) i = noNode := by
  rw [loadedLinks, getLink_tabulate _ (by omega), if_pos h]

theorem getLink_loadedLinks_slot (k pos : Nat) (s : State) {i : Nat} (h256 : 256 ≤ i) (h512 : i < 512) :
    getLink (loadedLinks k pos s) i = readField pos (3 * (i - 256) + k) s := by
  rw [loadedLinks, getLink_tabulate _ h512, if_neg (not_lt.2 h256)]

theorem readField_slot (pos i k : Nat) (s : State) :
    readField pos (3 * (i - 256) + k) s = unIdx s.cfg.width s.cfg.endian
      (memRead (pos + 3 * s.cfg.width.bytes * (i - 256) + k * s.cfg.width.bytes) s.cfg.width.bytes s) := by
  rw [readField, slot_offset, Nat.add_assoc]

/-- Settles O32: the length test alone decides, and each loaded field is read at its offset. -/
theorem deserializeLoadsTheTreeBlock : Obligations.DeserializeLoadsTheTreeBlock := by
  intro s
  refine ⟨execDeserialize_of_short, fun h => ⟨_, execDeserialize_of_block h, fun n hn => ?_, fun n h256 h512 => ?_,
    ?_, narrowSize_toNat (lt_of_le_of_lt h s.srclen.isLt), ?_⟩⟩
  · exact ⟨getLink_loadedLinks_leaf 0 _ s hn, getLink_loadedLinks_leaf 1 _ s hn, getLink_loadedLinks_leaf 2 _ s hn⟩
  · have hslot (k : Nat) := (getLink_loadedLinks_slot k s.srcpos.toNat s h256 h512).trans (readField_slot _ n k s)
    exact ⟨by simpa using hslot 0, by simpa using hslot 1, by simpa using hslot 2⟩
  · rw [setPc_nodes, setPos_nodes, loadTree_root, readField]
  · simp only [setPc, setPos, loadTree]
    rfl

/-! ### The block read back (R138) -/

/-- A read inside a source that holds exactly these bytes. -/
theorem memRead_eq_take_drop {s : State} {bs : List Byte} (hs : s.src = Memory.ofBytes bs)
    (hl : s.srclen.toNat = bs.length) {a n : Nat} (h : a + n ≤ bs.length) :
    memRead a n s = (bs.drop a).take n := by
  obtain ⟨r, hr⟩ := Nat.exists_eq_add_of_le h
  have hall := memRead_ofBytes hs hl
  rw [hr, Nat.add_assoc, memRead_add, memRead_add, Nat.zero_add] at hall
  rw [← hall, List.drop_left' (memRead_length _ _ _), List.take_left' (memRead_length _ _ _)]

/-- A field of a tree block in the source reads as the value it was made from. -/
theorem readField_of_treeBlock {s : State} {n : NodeTable} {before after : List Byte} {j : Nat} {v : Int}
    (hsrc : s.src = Memory.ofBytes (before ++ treeBlock s.cfg.width s.cfg.endian n ++ after))
    (hlen : s.srclen.toNat = (before ++ treeBlock s.cfg.width s.cfg.endian n ++ after).length)
    (hj : (treeFields n)[j]? = some v) (hv : fitsIdx s.cfg.width v = true) : readField before.length j s = v := by
  have hj769 : j < 769 := treeFields_length n ▸ (List.getElem?_eq_some_iff.1 hj).1
  have hend : j * s.cfg.width.bytes + s.cfg.width.bytes ≤ (treeBlock s.cfg.width s.cfg.endian n).length := by
    rw [treeBlock_length, ← Nat.succ_mul]
    exact Nat.mul_le_mul_right _ hj769
  have hfield : memRead (before.length + j * s.cfg.width.bytes) s.cfg.width.bytes s =
      idxBytes s.cfg.width s.cfg.endian v := by
    rw [memRead_eq_take_drop hsrc hlen (by simp only [List.length_append]; omega), List.append_assoc,
      ← List.drop_drop, List.drop_left, List.drop_append_of_le_length (by omega),
      List.take_append_of_le_length (by rw [List.length_drop]; omega), treeBlock_field _ _ hj]
  rw [readField, hfield, unIdx_idxBytes _ hv]

/-- Settles O33: the bytes written are the tree block, and every field of it reads back as it was. -/
theorem treeSurvivesTheArchive : Obligations.TreeSurvivesTheArchive := by
  rintro s u before block after hs hleft hright hparent hroot hwidth hendian ⟨t, ht, hbytes⟩ hsrc hlen hpos
  obtain ⟨t', hexec, hdst, -, -⟩ := execSerialize_of_allTrue hs
  obtain rfl : setPc .codegen t' = t := by simpa [hexec] using ht
  obtain rfl : treeBlock u.cfg.width u.cfg.endian s.nodes = block := by
    rw [setPc_dst, hdst, bytes_extend, ← hwidth, ← hendian] at hbytes
    exact List.append_cancel_left hbytes
  rw [← hwidth] at hleft hright hparent hroot
  have hfits : u.srcpos.toNat + u.cfg.treeBytes ≤ u.srclen.toNat := by
    rw [hpos, hlen, List.length_append, List.length_append, treeBlock_length]
    exact Nat.le_add_right _ _
  have hread {j : Nat} {v : Int} (hj : (treeFields s.nodes)[j]? = some v) (hv : fitsIdx u.cfg.width v = true) :
      readField u.srcpos.toNat j u = v := hpos ▸ readField_of_treeBlock hsrc hlen hj hv
  refine ⟨_, execDeserialize_of_block hfits, rfl, hread (treeFields_root _) hroot, fun n h256 h512 => ?_⟩
  have hslot {k : Nat} {v : Int} (hk : [getLink s.nodes.left n, getLink s.nodes.right n,
      getLink s.nodes.parent n][k]? = some v) (hv : fitsIdx u.cfg.width v = true) :
      getLink (loadedLinks k u.srcpos.toNat u) n = v :=
    (getLink_loadedLinks_slot k _ u h256 h512).trans (hread (treeFields_slot h256 h512 hk) hv)
  exact ⟨hslot rfl (hleft n h512), hslot rfl (hright n h512), hslot rfl (hparent n h512)⟩

end Sys2Proof.Machine

/-! SUPPORT. Proofs for the family of spec/43_code_table.md: CODEGEN completes over parent links that climb (O34), the
codes it makes lead from the root to their leaf (O35), and so no code of a present leaf begins another's (O36). -/

namespace Sys2Proof.Machine

/-! ### The way up from a node (R150) -/

/-- The parent links lead from node `i` to a node without a parent; the list is the bits of the nodes passed, the one
nearest the top first. -/
inductive Ascent (n : NodeTable) : Nat → List Bool → Prop where
  | top {i : Nat} : getLink n.parent i = noNode → Ascent n i []
  | step {i p : Nat} {c : List Bool} : getLink n.parent i = p → p < 512 → Ascent n p c →
      Ascent n i (c ++ [getLink n.left p != (i : Int)])

theorem walkUp_of_no_parent {n : NodeTable} {i : Nat} (h : getLink n.parent i = noNode) (fuel : Nat)
    (bits : List Bool) : walkUp n fuel i bits = .ok bits := by
  unfold walkUp
  exact if_pos h

theorem walkUp_of_parent {n : NodeTable} {i p : Nat} (h : getLink n.parent i = p) (hp : p < 512) (fuel : Nat)
    (bits : List Bool) :
    walkUp n (fuel + 1) i bits = walkUp n fuel p ((getLink n.left p != (i : Int)) :: bits) := by
  have hid : isNodeId (p : Int) = true := isNodeId_iff.2 (by omega)
  have hne : (p : Int) ≠ noNode := by simp only [noNode]; omega
  rw [walkUp, h, if_neg hne, if_pos hid, Int.toNat_natCast]

theorem walkUp_of_ascent {n : NodeTable} {i : Nat} {c : List Bool} (h : Ascent n i c) {fuel : Nat}
    (hfuel : c.length ≤ fuel) (bits : List Bool) : walkUp n fuel i bits = .ok (c ++ bits) := by
  induction h generalizing fuel bits with
  | top htop => exact walkUp_of_no_parent htop fuel bits
  | step hparent hp _ ih =>
    rw [List.length_append, List.length_singleton] at hfuel
    obtain ⟨fuel, rfl⟩ := Nat.exists_eq_add_of_le' (Nat.le_of_add_left_le hfuel)
    rw [walkUp_of_parent hparent hp, ih (Nat.le_of_add_le_add_right hfuel), List.append_assoc, List.singleton_append]

/-! ### Parent links that climb (R151) -/

/-- Every parent link that is not NONE leads to a larger id, that of an internal node below 511 (R26 (e), R151). -/
def Climbing (n : NodeTable) : Prop :=
  ∀ i : Nat, i < 512 → getLink n.parent i ≠ noNode → ∃ p : Nat,
    getLink n.parent i = p ∧ i < p ∧ 256 ≤ p ∧ p ≤ 510

/-- The way up passes internal nodes of increasing ids, at most those above `i` and up to 510. -/
theorem exists_ascent_of_climbing {n : NodeTable} (h : Climbing n) (i : Nat) (hi : i < 512) :
    ∃ c, Ascent n i c ∧ c.length ≤ 510 - max i 255 := by
  by_cases htop : getLink n.parent i = noNode
  · exact ⟨[], .top htop, Nat.zero_le _⟩
  · obtain ⟨p, hparent, hip, hlow, hhigh⟩ := h i hi htop
    obtain ⟨c, hc, hlen⟩ := exists_ascent_of_climbing h p (by omega)
    refine ⟨_, .step hparent (by omega) hc, ?_⟩
    rw [List.length_append, List.length_singleton]
    omega
termination_by 512 - i

/-- CODEGEN over climbing links: each symbol's code is what its walk answers, and the bits of its way up. -/
theorem execCodegen_of_climbing {s : State} (h : Climbing s.nodes) :
    ∃ t, exec .codegen s = .next t ∧ ∀ b : Byte,
      codeOf s.nodes b.toNat = .ok (getCode t.code b) ∧ Ascent s.nodes b.toNat (getCode t.code b) := by
  have hascent : ∀ i, i < 256 → ∃ c, codeOf s.nodes i = .ok c ∧ Ascent s.nodes i c := fun i hi => by
    obtain ⟨c, hc, hlen⟩ := exists_ascent_of_climbing h i (by omega)
    exact ⟨c, by rw [codeOf, walkUp_of_ascent hc (by omega), List.append_nil], hc⟩
  choose! f hf using hascent
  obtain ⟨t, ht, hget⟩ := execCodegen_of_codes fun i hi => (hf i hi).1
  exact ⟨t, ht, fun b => hget b ▸ hf b.toNat b.isLt⟩

/-- Settles O34: every walk ends within the 255 internal ids 256..510; the codes of the two short walks are known. -/
theorem codegenCompletesOnClimbingLinks : Obligations.CodegenCompletesOnClimbingLinks := by
  intro s h
  obtain ⟨t, ht, hcodes⟩ := execCodegen_of_climbing h
  refine ⟨t, ht, ?_, fun b => ?_⟩
  · obtain ⟨cs, -, rfl⟩ := execCodegen_cases ht
    rfl
  · obtain ⟨hcode, -⟩ := hcodes b
    refine ⟨walkUp_length hcode, fun htop => ?_, fun p hp hroot => ?_⟩
    · exact Except.ok.inj (hcode.symm.trans (codeOf_of_no_parent htop))
    · have hb : b.toNat < 512 := by have := b.isLt; omega
      obtain ⟨q, hq, -, -, hhigh⟩ := h b.toNat hb (by omega)
      exact Except.ok.inj (hcode.symm.trans (codeOf_of_root_child (by omega) hp hroot))

/-! ### The way down a tree BUILD made (R154) -/

theorem climbing_of_builtTree {n : NodeTable} (h : BuiltTree n) : Climbing n := fun i hi hparent => by
  obtain ⟨p, hp, hip, hlow, hhigh, -⟩ := h.parents i hi hparent
  have := h.created
  exact ⟨p, hp, hip, hlow, by omega⟩

/-- A node of the tree: an internal node BUILD made, or a leaf with a parent. -/
def InTree (n : NodeTable) (i : Nat) : Prop :=
  i < n.nextFree.toNat ∧ (256 ≤ i ∨ getLink n.parent i ≠ noNode)

theorem eq_root_of_no_parent {n : NodeTable} (h : BuiltTree n) {i : Nat} (hi : InTree n i)
    (htop : getLink n.parent i = noNode) : n.root = i := by
  obtain ⟨hlt, hlow | hparent⟩ := hi
  · have hlast : ¬ i + 1 < n.nextFree.toNat := fun hlt' => h.othersHaveParents i hlow hlt' htop
    have := h.rootIsLast
    omega
  · exact absurd htop hparent

theorem parent_of_builtTree {n : NodeTable} (h : BuiltTree n) {i p : Nat} (hi : InTree n i)
    (hp : getLink n.parent i = p) :
    256 ≤ p ∧ p < n.nextFree.toNat ∧ (getLink n.left p = i ∨ getLink n.right p = i) := by
  have := h.created
  obtain ⟨q, hq, -, hlow, hhigh, hchild⟩ := h.parents i (by have := hi.1; omega) (by simp only [noNode]; omega)
  obtain rfl : q = p := by omega
  exact ⟨hlow, hhigh, hchild⟩

/-- The bit CODEGEN records at a node leads from its parent back to it: what is not the left child is the right one. -/
theorem child_of_recorded_bit {n : NodeTable} {i p : Nat} (h : getLink n.left p = i ∨ getLink n.right p = i) :
    child n p (getLink n.left p != (i : Int)) = i := by
  by_cases hleft : getLink n.left p = i
  · simp [child, hleft]
  · simp [child, hleft, h.resolve_left hleft]

theorem follow_concat (n : NodeTable) (i : Int) (c : List Bool) (b : Bool) :
    follow n i (c ++ [b]) = child n (follow n i c).toNat b := by
  simp [follow]

/-- The bits of the way up, followed from the root, lead back down. -/
theorem follow_of_ascent {n : NodeTable} (h : BuiltTree n) {i : Nat} {c : List Bool} (hup : Ascent n i c)
    (hi : InTree n i) : follow n n.root c = i := by
  induction hup with
  | top htop => exact eq_root_of_no_parent h hi htop
  | step hparent _ _ ih =>
    obtain ⟨hlow, hhigh, hchild⟩ := parent_of_builtTree h hi hparent
    rw [follow_concat, ih ⟨hhigh, .inl hlow⟩, Int.toNat_natCast, child_of_recorded_bit hchild]

/-- Before the last bit the way down stands at an internal node: at the parent after all but one, and before that on
the parent's own way down. -/
theorem follow_take_of_ascent {n : NodeTable} (h : BuiltTree n) {i : Nat} {c : List Bool} (hup : Ascent n i c)
    (hi : InTree n i) {k : Nat} (hk : k < c.length) :
    256 ≤ follow n n.root (c.take k) ∧ follow n n.root (c.take k) ≤ 511 := by
  induction hup with
  | top => exact absurd hk (Nat.not_lt_zero k)
  | step hparent hp hrest ih =>
    obtain ⟨hlow, hhigh, -⟩ := parent_of_builtTree h hi hparent
    have hin : InTree n _ := ⟨hhigh, .inl hlow⟩
    rw [List.length_append, List.length_singleton] at hk
    rw [List.take_append_of_le_length (Nat.le_of_lt_succ hk)]
    rcases Nat.lt_succ_iff_lt_or_eq.1 hk with hlt | rfl
    · exact ih hin hlt
    · rw [List.take_length, follow_of_ascent h hrest hin]
      omega

theorem inTree_of_present_leaf {n : NodeTable} (h : BuiltTree n) {b : Byte}
    (hb : getLink n.parent b.toNat ≠ noNode) : InTree n b.toNat :=
  ⟨by have := h.created; have := b.isLt; omega, .inr hb⟩

/-- Settles O35: a code is the bits of its leaf's way up, which lead back down. -/
theorem codesLeadFromTheRootToTheirLeaf : Obligations.CodesLeadFromTheRootToTheirLeaf := by
  intro s h
  obtain ⟨t, ht, hcodes⟩ := execCodegen_of_climbing (climbing_of_builtTree h)
  refine ⟨t, ht, fun b hb => ?_⟩
  obtain ⟨-, hup⟩ := hcodes b
  have hin := inTree_of_present_leaf h hb
  exact ⟨follow_of_ascent h hup hin, fun k hk => follow_take_of_ascent h hup hin hk⟩

/-- Settles O36: a code that begins another leads to its own leaf, while the other's bits before the last lead to an
internal node and all of them to the other leaf. -/
theorem codesOfPresentLeavesArePrefixFree : Obligations.CodesOfPresentLeavesArePrefixFree := by
  intro s t h ht b c hne hb hc hprefix
  obtain ⟨t', ht', hlead⟩ := codesLeadFromTheRootToTheirLeaf s h
  obtain rfl : t' = t := by simpa [ht'] using ht
  obtain ⟨hleaf, -⟩ := hlead b hb
  obtain ⟨hother, hbefore⟩ := hlead c hc
  rw [List.prefix_iff_eq_take.1 hprefix] at hleaf
  rcases hprefix.length_le.lt_or_eq with hlt | heq
  · have hinternal := (hbefore _ hlt).1
    have := b.isLt
    omega
  · rw [heq, List.take_length, hother] at hleaf
    exact hne (BitVec.eq_of_toNat_eq (by omega))

end Sys2Proof.Machine

/-! SUPPORT. Proofs for the family of spec/44_bit_packer.md: AppendBit (O37), UNPACK's test of the root (O39), UNPACK as
the walk over the payload's bit string (O40). -/

namespace Sys2Proof.Machine

/-! ### AppendBit (R160) -/

theorem shiftIn_acc_toNat (b : Bool) (s : State) :
    (shiftIn b s).acc.toNat = (2 * s.acc.toNat + b.toNat) % 256 := by
  rw [shiftIn_acc, BitVec.toNat_setWidth, BitVec.toNat_concat, Nat.mul_comm s.acc.toNat]

theorem shiftIn_acc_eq_ofNat (b : Bool) (s : State) :
    (shiftIn b s).acc = BitVec.ofNat 8 (2 * s.acc.toNat + b.toNat) :=
  BitVec.eq_of_toNat_eq (by rw [shiftIn_acc_toNat, BitVec.toNat_ofNat])

theorem appendBit_of_room {s : State} (b : Bool) (h : s.nacc ≠ 7#3) : appendBit b s = .go (shiftIn b s) :=
  if_neg h

theorem appendBit_of_full_answer {s : State} (b : Bool) (h : s.nacc = 7#3) (hyes : nextAnswer s = true) :
    appendBit b s = .go (clearAcc (appendBytes [(shiftIn b s).acc] (popAnswer (shiftIn b s)))) := by
  rw [appendBit, if_pos h, memWrite_of_answer (s := shiftIn b s) _ hyes, go_andThen]

theorem appendBit_of_full_no_answer {s : State} (b : Bool) (h : s.nacc = 7#3) (hno : nextAnswer s = false) :
    appendBit b s = .raised (takeError .ioFailure (popAnswer (shiftIn b s))) := by
  rw [appendBit, if_pos h, memWrite_of_no_answer (s := shiftIn b s) _ hno, raised_andThen]

/-- Settles O37: the three courses of AppendBit. -/
theorem appendBitFlushesAtEightBits : Obligations.AppendBitFlushesAtEightBits := by
  refine fun s b => ⟨fun hroom => ?_, fun hfull hyes => ?_, fun hfull hno => ?_⟩
  · have hnacc : s.nacc ≠ 7#3 := by bv_omega
    have hgrows : (s.nacc + 1#3).toNat = s.nacc.toNat + 1 := by bv_omega
    exact ⟨_, appendBit_of_room b hnacc, hgrows, shiftIn_acc_toNat b s, rfl⟩
  · have hnacc : s.nacc = 7#3 := BitVec.eq_of_toNat_eq hfull
    refine ⟨_, appendBit_of_full_answer b hnacc hyes, rfl, rfl, ?_, rfl⟩
    rw [← shiftIn_acc_eq_ofNat]
    exact bytes_extend s.dst _
  · have hnacc : s.nacc = 7#3 := BitVec.eq_of_toNat_eq hfull
    exact ⟨_, appendBit_of_full_no_answer b hnacc hno, rfl, rfl⟩

/-! ### The test of the root (R166) -/

theorem execUnpack_of_internal_root {s : State} (h : isInternalId s.nodes.root = true) :
    exec .unpack s = (walk (payloadBits s) (startWalk s)).endPhase .finish := by
  rw [exec, execUnpack, if_pos h]

theorem execUnpack_of_other_root {s : State} (h : ¬ isInternalId s.nodes.root = true) :
    exec .unpack s = .next (takeError .structuralInconsistency s) := by
  rw [exec, execUnpack, if_neg h, raise, raised_endPhase]

/-- Settles O39: the test comes before the walk. -/
theorem unpackTestsTheRootFirst : Obligations.UnpackTestsTheRootFirst := fun s hroot =>
  execUnpack_of_other_root fun hid => by
    have := isInternalId_iff.1 hid
    omega

/-! ### The bits UNPACK has before it (R59, R165, R170) -/

/-- The bits before the walk: those in the queue, then those of the source bytes not fetched yet. -/
def inputBits (s : State) : List Bool :=
  (byteBits s.bq).take s.nbq.toNat ++
    (memRead s.srcpos.toNat (s.srclen.toNat - s.srcpos.toNat) s).flatMap byteBits

/-- What a walk under true answers keeps: the position within the source, no whole byte waiting in the queue. -/
structure Walking (s : State) : Prop where
  answers : AllAnswersTrue s
  inSource : s.srcpos.toNat ≤ s.srclen.toNat
  queueNotFull : s.nbq.toNat ≤ 7

theorem Walking.stand {s : State} (h : Walking s) (c : Int) : Walking { s with cur := c } :=
  ⟨h.answers, h.inSource, h.queueNotFull⟩

theorem Walking.emit {s : State} (h : Walking s) (sym : Byte) :
    Walking (backToRoot (appendBytes [sym] (popAnswer s))) :=
  ⟨allTrue_popAnswer h.answers, h.inSource, h.queueNotFull⟩

theorem inputBits_length {s : State} (h : Walking s) :
    (inputBits s).length = s.nbq.toNat + 8 * (s.srclen.toNat - s.srcpos.toNat) := by
  have hqueue := h.queueNotFull
  simp only [inputBits, List.length_append, List.length_take, List.length_flatMap, byteBits, List.length_cons,
    List.length_nil, List.map_const', List.sum_replicate, memRead_length, smul_eq_mul]
  omega

/-- SRCPOS is just after the byte that held the last bit taken (R170). -/
theorem srcpos_of_inputBits {s : State} (h : Walking s) :
    s.srcpos.toNat = s.srclen.toNat - (inputBits s).length / 8 := by
  have hqueue := h.queueNotFull
  have hin := h.inSource
  rw [inputBits_length h]
  omega

/-- The head of the bit queue is bit 7; a shift to the left brings the next one there (R59). -/
theorem take_byteBits_succ (v : Byte) {n : Nat} (h : n ≤ 7) :
    (byteBits v).take (n + 1) = v.getLsbD 7 :: (byteBits (v <<< 1)).take n := by
  have hshift : byteBits (v <<< 1) = (byteBits v).tail ++ [false] := by simp [byteBits]
  rw [hshift, List.take_append_of_le_length (by simpa [byteBits] using h)]
  rfl

theorem inputBits_of_queue {s : State} {n : Nat} (hn : s.nbq.toNat = n + 1) (h : n ≤ 7) :
    inputBits s = s.bq.getLsbD 7 :: ((byteBits (s.bq <<< 1)).take n ++
      (memRead s.srcpos.toNat (s.srclen.toNat - s.srcpos.toNat) s).flatMap byteBits) := by
  rw [inputBits, hn, take_byteBits_succ _ h, List.cons_append]

theorem inputBits_of_source {s : State} (hq : s.nbq = 0#4) (hmore : s.srcpos.toNat < s.srclen.toNat) :
    inputBits s = (srcByte s s.srcpos.toNat).getLsbD 7 :: ((byteBits (srcByte s s.srcpos.toNat <<< 1)).take 7 ++
      (memRead (s.srcpos.toNat + 1) (s.srclen.toNat - (s.srcpos.toNat + 1)) s).flatMap byteBits) := by
  have hread : memRead s.srcpos.toNat (s.srclen.toNat - s.srcpos.toNat) s =
      srcByte s s.srcpos.toNat :: memRead (s.srcpos.toNat + 1) (s.srclen.toNat - (s.srcpos.toNat + 1)) s := by
    rw [show s.srclen.toNat - s.srcpos.toNat = 1 + (s.srclen.toNat - (s.srcpos.toNat + 1)) by omega, memRead_add]
    rfl
  have hbyte := take_byteBits_succ (srcByte s s.srcpos.toNat) (le_refl 7)
  rw [List.take_of_length_le (by simp [byteBits])] at hbyte
  rw [inputBits, hq, hread, List.flatMap_cons, hbyte]
  rfl

/-! ### One step of the walk takes the first of the bits -/

/-- Another queue and position; the rest of the state as it is. -/
def withQueue (q : Byte) (n : BitVec 4) (p : Size) (s : State) : State := { s with bq := q, nbq := n, srcpos := p }

theorem descend_of_inputBits_nil {s : State} (i : Nat) (h : Walking s) (hnil : inputBits s = []) :
    descend i s = .raised (takeError .insufficientData s) := by
  have hlen := inputBits_length h
  rw [hnil, List.length_nil] at hlen
  exact descend_of_end i (by bv_omega) (by omega)

theorem descend_of_inputBits_cons {s : State} {b : Bool} {bs : List Bool} (i : Nat) (h : Walking s)
    (hcons : inputBits s = b :: bs) :
    ∃ q n p, descend i s = standAt (child s.nodes i b) (withQueue q n p s) ∧
      Walking (withQueue q n p s) ∧ inputBits (withQueue q n p s) = bs := by
  by_cases hq : s.nbq = 0#4
  · have hlen := inputBits_length h
    rw [hcons, List.length_cons, hq, BitVec.toNat_zero] at hlen
    have hmore : s.srcpos.toNat < s.srclen.toNat := by omega
    have hpos : (BitVec.ofNat 64 (s.srcpos.toNat + 1)).toNat = s.srcpos.toNat + 1 := by
      have := s.srclen.isLt
      rw [BitVec.toNat_ofNat]
      omega
    rw [inputBits_of_source hq hmore] at hcons
    obtain ⟨rfl, rfl⟩ := List.cons.inj hcons
    refine ⟨_, _, _, descend_of_source i hq hmore, ⟨h.answers, by rw [withQueue, hpos]; exact hmore, le_refl 7⟩, ?_⟩
    rw [inputBits, withQueue, hpos]
    rfl
  · have hless : s.nbq.toNat = (s.nbq - 1#4).toNat + 1 := by bv_omega
    have hroom : (s.nbq - 1#4).toNat ≤ 7 := by
      have := h.queueNotFull
      omega
    rw [inputBits_of_queue hless hroom] at hcons
    obtain ⟨rfl, rfl⟩ := List.cons.inj hcons
    have hpos : BitVec.ofNat 64 s.srcpos.toNat = s.srcpos := by rw [BitVec.ofNat_toNat, BitVec.setWidth_eq]
    have hstep := descend_of_queue i hq
    rw [hpos] at hstep
    exact ⟨_, _, _, hstep, ⟨h.answers, h.inSource, hroom⟩, rfl⟩

/-! ### The walk over a bit string, by the node found -/

section WalkBits
variable {n : NodeTable} {i : Int} {b : Bool} {bs : List Bool}

theorem walkBits_of_missing (h : ¬ isNodeId (child n i.toNat b) = true) :
    walkBits n i (b :: bs) = ([], .missing bs.length) :=
  if_pos (by rw [isNodeId_iff] at h; omega)

theorem walkBits_of_node (h : isNodeId (child n i.toNat b) = true) :
    walkBits n i (b :: bs) =
      if child n i.toNat b = 0 then ([], .stopped bs.length)
      else if child n i.toNat b < 256 then
        (BitVec.ofInt 8 (child n i.toNat b) :: (walkBits n n.root bs).1, (walkBits n n.root bs).2)
      else walkBits n (child n i.toNat b) bs :=
  if_neg (by rw [isNodeId_iff] at h; omega)

end WalkBits

/-! ### UNPACK and the walk over its bit string (R165, R167 to R170) -/

/-- UNPACK from `s` has ended in `t` as the walk over the bit string does: its symbols appended, its end. -/
def UnpackEnds (s t : State) (r : List Byte × WalkEnd) : Prop :=
  Memory.bytes t.dst = Memory.bytes s.dst ++ r.1 ∧
    match r.2 with
    | .stopped k =>
      t.phase = 16#5 ∧ t.errcode = s.errcode ∧ t.status = s.status ∧ t.srcpos.toNat = s.srclen.toNat - k / 8
    | .missing k => t.phase = 18#5 ∧ t.errcode = 3#3 ∧ t.srcpos.toNat = s.srclen.toNat - k / 8
    | .starved => t.phase = 18#5 ∧ t.errcode = 2#3 ∧ t.srcpos = s.srclen

theorem unpackEnds_stopped {s : State} (h : Walking s) :
    UnpackEnds s (setPc .finish s) ([], .stopped (inputBits s).length) := by
  have hpos := srcpos_of_inputBits h
  exact ⟨(List.append_nil _).symm, rfl, rfl, rfl, hpos⟩

theorem unpackEnds_missing {s : State} (h : Walking s) :
    UnpackEnds s (takeError .structuralInconsistency s) ([], .missing (inputBits s).length) := by
  have hpos := srcpos_of_inputBits h
  exact ⟨(List.append_nil _).symm, rfl, rfl, hpos⟩

theorem unpackEnds_starved {s : State} (h : Walking s) (hnil : inputBits s = []) :
    UnpackEnds s (takeError .insufficientData s) ([], .starved) := by
  have hpos := srcpos_of_inputBits h
  rw [hnil, List.length_nil, Nat.zero_div, Nat.sub_zero] at hpos
  exact ⟨(List.append_nil _).symm, rfl, rfl, BitVec.eq_of_toNat_eq hpos⟩

/-- A symbol emitted before the rest of the walk. -/
theorem UnpackEnds.cons {s t : State} {sym : Byte} {r : List Byte × WalkEnd}
    (h : UnpackEnds (backToRoot (appendBytes [sym] (popAnswer s))) t r) : UnpackEnds s t (sym :: r.1, r.2) := by
  obtain ⟨hdst, hend⟩ := h
  refine ⟨?_, hend⟩
  rw [hdst]
  exact (congrArg (· ++ r.1) (bytes_extend s.dst [sym])).trans (List.append_assoc _ _ _)

/-- The loop with exactly as many turns as there are bits does what the walk over those bits does. -/
theorem walk_follows_inputBits {s : State} {bits : List Bool} (h : Walking s) (hbits : inputBits s = bits) :
    ∃ t, (walk bits.length s).endPhase .finish = .next t ∧ UnpackEnds s t (walkBits s.nodes s.cur bits) := by
  induction bits generalizing s with
  | nil => exact ⟨_, rfl, unpackEnds_starved h hbits⟩
  | cons b bs ih =>
    obtain ⟨q, n, p, hstep, hwalking, rfl⟩ := descend_of_inputBits_cons s.cur.toNat h hbits
    rw [List.length_cons, walk, hstep]
    by_cases hid : isNodeId (child s.nodes s.cur.toNat b) = true
    · rw [standAt_of_isNodeId hid, go_andThen, walkBits_of_node hid]
      generalize child s.nodes s.cur.toNat b = c
      have hthere := hwalking.stand c
      dsimp only
      by_cases hstop : c = 0
      · rw [if_pos hstop, if_pos hstop, go_endPhase]
        exact ⟨_, rfl, unpackEnds_stopped hthere⟩
      · rw [if_neg hstop, if_neg hstop]
        by_cases hleaf : c < 256
        · rw [if_pos hleaf, if_pos hleaf, emit_of_answer _ (nextAnswer_of_allTrue hthere.answers), go_andThen]
          obtain ⟨t, ht, hends⟩ := ih (hthere.emit (BitVec.ofInt 8 c)) rfl
          exact ⟨t, ht, hends.cons⟩
        · rw [if_neg hleaf, if_neg hleaf]
          exact ih hthere rfl
    · rw [standAt_of_not_isNodeId hid, raised_andThen, raised_endPhase, walkBits_of_missing hid]
      exact ⟨_, rfl, unpackEnds_missing hwalking⟩

/-- Settles O40: at its start UNPACK stands at the root, and the bits before it are those of the rest of the source. -/
theorem unpackFollowsThePayloadBits : Obligations.UnpackFollowsThePayloadBits := by
  intro s hanswers hlow hhigh hpos
  have hwalking : Walking (startWalk s) := ⟨hanswers, hpos, Nat.zero_le 7⟩
  have hturns : (inputBits (startWalk s)).length = payloadBits s :=
    (inputBits_length hwalking).trans (Nat.zero_add _)
  rw [execUnpack_of_internal_root (isInternalId_iff.2 ⟨hlow, hhigh⟩), ← hturns]
  exact walk_follows_inputBits hwalking rfl

end Sys2Proof.Machine

/-! SUPPORT. Proofs for the family of spec/45_format_controller.md: commands and resting states (O5, O6, O7), the header
(O44, O45, O49, O50), FINISH (O53), the successor table (O15), COPY_DEC (O48), COPY_ENC (O46, O47), and whole commands
(O57, O58, O59). A whole command is followed phase by phase: each phase leads from one `Operating` state to the next,
and the lemmas about a phase say what it has written. -/

namespace Sys2Proof.Machine

/-! ### Commands and resting states (R180, R181, R197, R198) -/

theorem acceptCommand_of_rest (op : BitVec 2) {s : State} (h : s.status.busy = false) :
    acceptCommand op s = setPc .init { s with op := op, status := s.status.accepted, errcode := 0#3 } := by
  simp [acceptCommand, h]

theorem writeCmd_of_rejected {v : Size} {e : DecodeError} (h : decode .cmdw (v.toNat % 256) = .rejected e)
    (s : State) : writeCmd (v.setWidth 8) s = .next s := by
  have hlow : (v.setWidth 8).toNat = v.toNat % 256 := by simp
  simp only [writeCmd, hlow, h]

theorem writeCmd_of_busy (w : BitVec 8) {s : State} (h : s.status.busy = true) : writeCmd w s = .next s := by
  unfold writeCmd
  split
  next i hdec =>
    obtain ⟨-, hformat, -⟩ := encodes_of_decode hdec
    cases i with
    | archive | unarchive => exact congrArg Host.Outcome.next (acceptCommand_of_busy _ h)
    | _ => cases hformat
  · rfl

/-- Settles O5: BUSY refuses both commands, and no other low byte is a command. -/
theorem commandNotAcceptedChangesNothing : Obligations.CommandNotAcceptedChangesNothing := by
  rintro s v (hbusy | ⟨h1, h2⟩)
  · exact writeCmd_of_busy _ hbusy
  · refine writeCmd_of_rejected (e := .illegalCommand) ?_ s
    rw [decode_cmdw (Nat.mod_lt _ (by decide)), decodeCmdw, if_neg h1, if_neg h2]

/-- Settles O6: both commands are accepted alike. -/
theorem commandIsAcceptedAtRest : Obligations.CommandIsAcceptedAtRest := fun _ hrest =>
  ⟨congrArg Host.Outcome.next (acceptCommand_of_rest 1#2 hrest),
    congrArg Host.Outcome.next (acceptCommand_of_rest 2#2 hrest)⟩

theorem writeSrclen_of_rest (v : Size) {s : State} (h : s.status.busy = false) :
    writeSrclen v s = { s with srclen := v } := by
  simp [writeSrclen, h]

theorem wellFormed_of_phase {i : Instr} (h : i.format = .phase) : i.wellFormed = true := by
  cases i with
  | nodeSymbol => cases h
  | _ => rfl

/-- The sequencer's turn with PHASE at the code of a phase instruction (R182). -/
theorem step_of_phase {s : State} {i : Instr} (hformat : i.format = .phase) (hin : s.inputs = [])
    (hphase : s.phase = i.phaseCode) : step s = exec i s := by
  have hdec : decode .phase (encode i) = .instr i := hformat ▸ decode_encode (wellFormed_of_phase hformat)
  have hcode : s.phase.toNat = encode i := by
    rw [hphase, Instr.phaseCode, BitVec.toNat_ofNat]
    exact Nat.mod_eq_of_lt (fits_of_decode hdec)
  rw [step_of_no_inputs hin]
  exact runPhase_of_decode (hcode ▸ hdec)

/-- Settles O7: the three operations answer the state itself, and the sequencer's turn runs the one PHASE names. -/
theorem restingStatesTakeNoStep : Obligations.RestingStatesTakeNoStep := by
  intro s i hi
  have hexec : exec i s = .next s := by rcases hi with rfl | rfl | rfl <;> rfl
  have hformat : i.format = .phase := by rcases hi with rfl | rfl | rfl <;> rfl
  exact ⟨hexec, fun hphase hin => (step_of_phase hformat hin hphase).trans hexec,
    fun hrest v => congrArg Host.Outcome.next (writeSrclen_of_rest v hrest)⟩

/-! ### The header (R183 to R186, R190 to R192) and FINISH (R196) -/

theorem execWrMagic_of_answer {s : State} (h : nextAnswer s = true) :
    exec .wrMagic s = .next (setPc .decideMode (appendBytes s.cfg.magicBytes (popAnswer s))) := by
  rw [exec, execWrMagic, memWrite_of_answer _ h, go_endPhase]

theorem execWrFlag_of_answer {s : State} (h : nextAnswer s = true) :
    exec .wrFlag s =
      .next (setPc (if s.huff then .freq else .copyEnc) (appendBytes [flagByte s.huff] (popAnswer s))) := by
  rw [exec, execWrFlag, memWrite_of_answer _ h, go_endPhase]

theorem phaseCode_afterFlag (b : Bool) :
    (if b then Instr.freq else Instr.copyEnc).phaseCode = if b then 5#5 else 10#5 := by
  cases b <;> rfl

/-- Settles O44: one request each, answered or not. -/
theorem headerIsWritten : Obligations.HeaderIsWritten := by
  refine fun s => ⟨fun hyes => ?_, fun hno => ⟨?_, ?_⟩⟩
  · refine ⟨_, _, execWrMagic_of_answer hyes, bytes_extend _ _, rfl, execWrFlag_of_answer hyes, bytes_extend _ _,
      ?_, fun hfits => ⟨narrowSize_toNat hfits, narrowSize_toNat ?_⟩⟩
    · rw [setPc_dst, setPc_dstlen, ← phaseCode_afterFlag]
      rfl
    · rw [popAnswer_dstlen, List.length_singleton]
      omega
  · rw [exec, execWrMagic, memWrite_of_no_answer _ hno, raised_endPhase]
    rfl
  · rw [exec, execWrFlag, memWrite_of_no_answer _ hno, raised_endPhase]
    rfl

theorem favorable_iff (len W : Nat) : favorable len W = true ↔ 512 * W < len := by
  rw [favorable, decide_eq_true_iff]
  omega

/-- Settles O45: both inequalities are the mode decision, in integers. -/
theorem decideChoosesByLengthAlone : Obligations.DecideChoosesByLengthAlone := by
  refine fun s => ⟨favorable s.srclen.toNat s.cfg.width.bytes, ?_, favorable_iff _ _, rfl⟩
  rw [favorable_iff]
  omega

theorem execRdMagic_of_short {s : State} (h : s.srclen.toNat < 4) :
    exec .rdMagic s = .next (takeError .formatMismatch s) := by
  rw [exec, execRdMagic, if_pos h]
  rfl

/-- RD_MAGIC reads the first four bytes and tests them as one list. -/
theorem execRdMagic_of_bytes {s : State} (h : 4 ≤ s.srclen.toNat) :
    exec .rdMagic s = (testMagic (memRead 0 4 s) { s with srcpos := 4#64 }).toOutcome := by
  rw [exec, execRdMagic, if_neg (Nat.not_lt.2 h), setPos_small (by decide)]

theorem execRdMagic_of_magic {s : State} (h : 4 ≤ s.srclen.toNat) (hm : memRead 0 4 s = s.cfg.magicBytes) :
    exec .rdMagic s = .next { s with srcpos := 4#64, phase := 12#5 } := by
  rw [execRdMagic_of_bytes h, testMagic, if_pos hm]
  rfl

theorem execRdMagic_of_foreign {s : State} (h : 4 ≤ s.srclen.toNat) (hm : memRead 0 4 s ≠ s.cfg.magicBytes) :
    exec .rdMagic s = .next (takeError .formatMismatch { s with srcpos := 4#64 }) := by
  rw [execRdMagic_of_bytes h, testMagic, if_neg hm]
  rfl

/-- Settles O49: the length first, then the four bytes. -/
theorem readMagicMatchesByteForByte : Obligations.ReadMagicMatchesByteForByte := by
  refine fun s => ⟨execRdMagic_of_short, fun hlen => ?_⟩
  have htest : memRead 0 4 s = s.cfg.magicBytes ↔ srcByte s 0 = s.cfg.magic0 ∧ srcByte s 1 = s.cfg.magic1 ∧
      srcByte s 2 = s.cfg.magic2 ∧ srcByte s 3 = s.cfg.magic3 := by
    rw [show memRead 0 4 s = [srcByte s 0, srcByte s 1, srcByte s 2, srcByte s 3] from rfl, Config.magicBytes]
    simp
  rw [← htest]
  exact ⟨execRdMagic_of_magic hlen, execRdMagic_of_foreign hlen⟩

theorem execRdFlag_of_short {s : State} (h : s.srclen.toNat < 5) :
    exec .rdFlag s = .next (takeError .insufficientData s) := by
  rw [exec, execRdFlag, if_pos h]
  rfl

/-- Settles O50: the length first, then the dispatch on bit 0. -/
theorem readFlagLooksAtBitZero : Obligations.ReadFlagLooksAtBitZero := by
  refine fun s => ⟨execRdFlag_of_short, ?_⟩
  rintro hlen _ rfl
  rw [execRdFlag_of_length hlen]
  cases (srcByte s 4).getLsbD 0 <;> rfl

/-- Settles O53: the two answers to the flush. -/
theorem finishFlushesAndReleases : Obligations.FinishFlushesAndReleases := by
  refine fun s => ⟨fun hyes => ?_, fun hno => ?_⟩
  · rw [exec, execFinish, if_pos hyes]
    rfl
  · rw [exec, execFinish, if_neg (Bool.not_eq_true _ ▸ hno)]
    rfl

end Sys2Proof.Machine

namespace Sys2Proof.Machine

/-! ### The successor table (R182) -/

/-- Where an operation may leave the machine: with PHASE at `q`, or with an error taken (R182, R213). -/
def HandsOn (q : BitVec 5) (t : State) : Prop :=
  t.phase = q ∨ (t.phase = 18#5 ∧ t.status.err = true ∧ t.status.busy = false)

theorem handsOn_takeError (q : BitVec 5) (x : ErrCode) (s : State) : HandsOn q (takeError x s) :=
  .inr ⟨rfl, rfl, rfl⟩

section StaysInPhase
variable (p q : BitVec 5)

theorem staysInPhase_appendRule : AppendRule (fun u => u.phase = p) (HandsOn q) where
  append _ _ h := h
  appendFails _ _ := handsOn_takeError q _ _

theorem staysInPhase_freqRule : FreqRule (fun u => u.phase = p) (HandsOn q) where
  read _ _ h := h
  count _ h := h
  overflow _ _ := handsOn_takeError q _ _

theorem staysInPhase_packRule : PackRule (fun u => u.phase = p) (HandsOn q) where
  toAppendRule := staysInPhase_appendRule p q
  position _ _ h := h
  shift _ _ h := h
  clear _ h := h

theorem staysInPhase_copyEncRule : CopyEncRule (fun u => u.phase = p) (HandsOn q) where
  toAppendRule := staysInPhase_appendRule p q
  read _ _ h := h

theorem staysInPhase_copyDecRule : CopyDecRule (fun u => u.phase = p) (HandsOn q) where
  toAppendRule := staysInPhase_appendRule p q
  position _ _ h := h

theorem staysInPhase_unpackRule : UnpackRule (fun u => u.phase = p) (HandsOn q) where
  toAppendRule := staysInPhase_appendRule p q
  start _ h := h
  fetch _ _ h := h
  takeBit _ h _ := h
  stand _ _ h _ := h
  toRoot _ h := h
  starved _ _ := handsOn_takeError q _ _
  inconsistent _ _ := handsOn_takeError q _ _

end StaysInPhase

/-- A step that writes no PHASE of its own. -/
theorem handsOn_of_toOutcome {p : BitVec 5} {r : Flow} {t : State} (hr : r.Ends (fun u => u.phase = p) (HandsOn p))
    (ht : r.toOutcome = .next t) : HandsOn p t := by
  cases r with
  | go s =>
    cases ht
    exact .inl hr
  | raised s =>
    cases ht
    exact hr

theorem acceptCommand_phase (op : BitVec 2) (s : State) :
    (acceptCommand op s).phase = if s.status.busy then s.phase else 1#5 := by
  unfold acceptCommand
  split <;> rfl

/-- Settles O15: in its course an operation stays in its phase or takes an error, and at its end it writes its
successor. -/
theorem everyOperationHandsOnToItsSuccessor : Obligations.EveryOperationHandsOnToItsSuccessor := by
  intro i s t ht
  change HandsOn (successor i s t) t
  have hends (j : Instr) (u : State) (_ : u.phase = s.phase) : HandsOn j.phaseCode (setPc j u) := .inl rfl
  cases i with
  | archive | unarchive =>
    cases ht
    exact .inl (acceptCommand_phase _ s)
  | idle | done | error =>
    cases ht
    exact .inl rfl
  | init =>
    rcases execInit_cases ht with rfl | rfl
    · exact .inl (phaseCode_afterInit s)
    · exact handsOn_takeError _ _ _
  | wrMagic => exact execWrMagic_leads (staysInPhase_appendRule s.phase _) (hends _) ht rfl
  | decideMode =>
    cases ht
    exact .inl rfl
  | wrFlag =>
    refine of_endPhase (memWrite_ends (staysInPhase_appendRule s.phase _) _ rfl) (fun u _ => .inl ?_) ht
    exact phaseCode_afterFlag s.huff
  | freq => exact execFreq_leads (staysInPhase_freqRule s.phase _) (hends _) ht rfl
  | build =>
    obtain ⟨-, rfl | ⟨x, rfl⟩⟩ := execBuild_cases ht
    · exact .inl rfl
    · exact handsOn_takeError _ _ _
  | serialize => exact execSerialize_leads (staysInPhase_appendRule s.phase _) (hends _) ht rfl
  | codegen =>
    obtain ⟨cs, -, rfl⟩ := execCodegen_cases ht
    exact .inl rfl
  | pack => exact execPack_leads (staysInPhase_packRule s.phase _) (hends _) ht rfl
  | copyEnc => exact execCopyEnc_leads (staysInPhase_copyEncRule s.phase _) (hends _) ht rfl
  | rdMagic =>
    rcases execRdMagic_cases ht with rfl | rfl | rfl
    · exact .inl rfl
    · exact handsOn_takeError _ _ _
    · exact handsOn_takeError _ _ _
  | rdFlag =>
    rcases execRdFlag_cases ht with ⟨b, rfl⟩ | rfl
    · cases b <;> exact .inl rfl
    · exact handsOn_takeError _ _ _
  | deserialize =>
    rcases execDeserialize_cases ht with rfl | rfl
    · exact .inl rfl
    · exact handsOn_takeError _ _ _
  | unpack => exact execUnpack_leads (staysInPhase_unpackRule s.phase _) (hends _) ht rfl
  | copyDec => exact execCopyDec_leads (staysInPhase_copyDecRule s.phase _) (hends _) ht rfl
  | finish =>
    rcases execFinish_cases ht with rfl | rfl
    · exact .inl rfl
    · exact handsOn_takeError _ _ _
  | hdrMagic m =>
    rw [exec, execHdrMagic, testMagic] at ht
    split at ht <;> cases ht
    · exact .inl rfl
    · exact handsOn_takeError _ _ _
  | hdrFlagHuff | hdrFlagVerb | nodeTerminator =>
    cases ht
    exact .inl rfl
  | nodeSymbol sym => exact handsOn_of_toOutcome (emit_ends (staysInPhase_unpackRule s.phase _) _ rfl) ht
  | nodeInternal slot => exact handsOn_of_toOutcome (descend_ends (staysInPhase_unpackRule s.phase _) _ rfl) ht

end Sys2Proof.Machine

namespace Sys2Proof.Machine

/-! ### COPY_DEC (R194) -/

/-- From `s` to `t` COPY_DEC has appended the rest of the source. -/
structure RestCopied (s t : State) : Prop where
  answers : AllAnswersTrue t
  written : Memory.bytes t.dst =
    Memory.bytes s.dst ++ memRead s.srcpos.toNat (s.srclen.toNat - s.srcpos.toNat) s
  frame : t = { s with dst := t.dst, dstlen := t.dstlen, srcpos := s.srclen, answers := t.answers }

theorem RestCopied.of_end {s : State} (h : AllAnswersTrue s) (hend : s.srcpos = s.srclen) : RestCopied s s where
  answers := h
  written := by rw [hend, Nat.sub_self]; exact (List.append_nil _).symm
  frame := congrArg (fun p => { s with srcpos := p }) hend

/-- One pass of COPY_DEC: `n` bytes copied, and SRCPOS after them. -/
def copyPiece (n : Nat) (s : State) : State :=
  setPos (s.srcpos.toNat + n) (appendBytes (memRead s.srcpos.toNat n s) (popAnswer s))

theorem RestCopied.of_piece {s t : State} {n : Nat} (hn : s.srcpos.toNat + n ≤ s.srclen.toNat)
    (h : RestCopied (copyPiece n s) t) : RestCopied s t where
  answers := h.answers
  written := by
    have hpos : (copyPiece n s).srcpos.toNat = s.srcpos.toNat + n :=
      narrowSize_toNat (lt_of_le_of_lt hn s.srclen.isLt)
    have hsplit : s.srclen.toNat - s.srcpos.toNat = n + (s.srclen.toNat - (s.srcpos.toNat + n)) := by omega
    have hread (a m : Nat) : memRead a m (copyPiece n s) = memRead a m s := memRead_congr rfl rfl a m
    rw [hsplit, memRead_add, h.written, hpos, hread, ← List.append_assoc]
    simp [copyPiece]
  frame := by rw [h.frame]; rfl

/-- The loop of COPY_DEC copies the rest, given as many passes as there are bytes left. -/
theorem copyDecLoop_copies {fuel : Nat} {s : State} (h : AllAnswersTrue s) (hin : s.srcpos.toNat ≤ s.srclen.toNat)
    (hfuel : s.srclen.toNat ≤ s.srcpos.toNat + fuel) :
    ∃ t, copyDecLoop fuel s.srcpos.toNat s = .go t ∧ RestCopied s t := by
  induction fuel generalizing s with
  | zero => exact ⟨s, rfl, .of_end h (BitVec.eq_of_toNat_eq (by omega))⟩
  | succ fuel ih =>
    by_cases hend : s.srclen.toNat ≤ s.srcpos.toNat
    · exact ⟨s, if_pos hend, .of_end h (BitVec.eq_of_toNat_eq (by omega))⟩
    · have hchunk := chunk_pos s.cfg
      obtain ⟨n, hn⟩ : ∃ n, n = min s.cfg.chunk (s.srclen.toNat - s.srcpos.toNat) := ⟨_, rfl⟩
      have hpos : (copyPiece n s).srcpos.toNat = s.srcpos.toNat + n :=
        narrowSize_toNat (by have := s.srclen.isLt; omega)
      have hlen : (copyPiece n s).srclen = s.srclen := rfl
      obtain ⟨t, ht, hcopied⟩ := ih (s := copyPiece n s) (allTrue_popAnswer h)
        (by rw [hpos, hlen]; omega) (by rw [hpos, hlen]; omega)
      refine ⟨t, ?_, hcopied.of_piece (by omega)⟩
      rw [copyDecLoop, if_neg hend]
      dsimp only
      rw [← hn, memWrite_of_answer _ (nextAnswer_of_allTrue h), go_andThen, ← ht, hpos]
      rfl

theorem execCopyDec_copies {s : State} (h : AllAnswersTrue s) (hin : s.srcpos.toNat ≤ s.srclen.toNat) :
    ∃ t, exec .copyDec s = .next (setPc .finish t) ∧ RestCopied s t := by
  obtain ⟨t, ht, hcopied⟩ := copyDecLoop_copies h hin (fuel := s.srclen.toNat - s.srcpos.toNat) (by omega)
  exact ⟨t, by rw [exec, execCopyDec, ht, go_endPhase], hcopied⟩

/-- Settles O48: the loop copies the rest, whatever the chunk. -/
theorem copyDecCopiesTheRest : Obligations.CopyDecCopiesTheRest := by
  intro s h hin
  obtain ⟨t, hexec, hcopied⟩ := execCopyDec_copies h hin
  refine ⟨_, hexec, hcopied.written, ?_⟩
  conv_lhs => rw [hcopied.frame]
  rfl

end Sys2Proof.Machine

namespace Sys2Proof.Machine

/-! ### COPY_ENC (R188, R189) -/

/-- Chunk `c` of the source, zero-padded past its end (R52). -/
def chunkBytes (s : State) (c : Nat) : List Byte := memRead (c * s.cfg.chunk) s.cfg.chunk s

theorem chunkBytes_eq_concat (s : State) (c : Nat) :
    chunkBytes s c = memRead (c * s.cfg.chunk) s.cfg.chunkPred s ++
      [srcByte s (c * s.cfg.chunk + s.cfg.chunkPred)] :=
  memRead_add _ s.cfg.chunkPred 1 s

/-- What R188 keeps of a chunk turns on its last byte. -/
theorem keptOfChunk_chunkBytes (s : State) (c : Nat) :
    keptOfChunk (chunkBytes s c) =
      if srcByte s (c * s.cfg.chunk + s.cfg.chunkPred) = 0#8 then (chunkBytes s c).takeWhile (· != 0#8)
      else chunkBytes s c := by
  rw [keptOfChunk, chunkBytes_eq_concat, List.getLastD_concat]

/-- What COPY_ENC keeps of the first `k` chunks. -/
def keptOfChunks (s : State) (k : Nat) : List Byte := (List.range k).flatMap fun c => keptOfChunk (chunkBytes s c)

theorem keptOfChunks_succ (s : State) (k : Nat) :
    keptOfChunks s (k + 1) = keptOfChunks s k ++ keptOfChunk (chunkBytes s k) := by
  simp [keptOfChunks, List.range_succ]

theorem writeKept_of_allTrue {s : State} (v : List Byte) (h : AllAnswersTrue s) :
    ∃ t, writeKept v s = .go t ∧ AllAnswersTrue t ∧ Memory.bytes t.dst = Memory.bytes s.dst ++ v ∧
      t = { s with dst := t.dst, dstlen := t.dstlen, answers := t.answers } := by
  by_cases hv : v = []
  · exact ⟨s, if_pos hv, h, by rw [hv, List.append_nil], rfl⟩
  · refine ⟨appendBytes v (popAnswer s), ?_, allTrue_appendBytes h v, bytes_extend _ _, rfl⟩
    rw [writeKept, if_neg hv, memWrite_of_answer v (nextAnswer_of_allTrue h)]

/-- From `s` to `t` COPY_ENC has copied the first `k` chunks. -/
structure ChunksCopied (s : State) (k : Nat) (t : State) : Prop where
  chunks : k ≤ chunkCount s
  answers : AllAnswersTrue t
  written : Memory.bytes t.dst = Memory.bytes s.dst ++ keptOfChunks s k
  frame : t = { s with
    dst := t.dst, dstlen := t.dstlen, buf := t.buf, answers := t.answers, srcpos := narrowSize (s.cfg.chunk * k) }

theorem ChunksCopied.start {s : State} (h : AllAnswersTrue s) (hpos : s.srcpos = 0#64) : ChunksCopied s 0 s where
  chunks := Nat.zero_le _
  answers := h
  written := (List.append_nil _).symm
  frame := by
    have hzero : narrowSize (s.cfg.chunk * 0) = s.srcpos := by rw [hpos]; exact narrowSize_of_toNat 0#64
    rw [hzero]

theorem ChunksCopied.all_of_end {s t : State} {k : Nat} (h : ChunksCopied s k t)
    (hend : s.srclen.toNat ≤ s.cfg.chunk * k) : k = chunkCount s :=
  Nat.le_antisymm h.chunks (chunkCount_le_iff.2 hend)

/-- One pass of the loop copies one chunk more. -/
theorem ChunksCopied.pass {s t : State} {k : Nat} (h : ChunksCopied s k t)
    (hmore : s.cfg.chunk * k < s.srclen.toNat) :
    ∃ u, writeKept (keptOfChunk (readChunk (s.cfg.chunk * k) t).buf) (readChunk (s.cfg.chunk * k) t) = .go u ∧
      ChunksCopied s (k + 1) u := by
  have hcfg : t.cfg = s.cfg := by rw [h.frame]
  have hbuf : (readChunk (s.cfg.chunk * k) t).buf = chunkBytes s k := by
    rw [readChunk_buf, hcfg, chunkBytes, Nat.mul_comm]
    exact memRead_congr (by rw [h.frame]) (by rw [h.frame]) _ _
  obtain ⟨u, hu, hanswers, hwritten, hframe⟩ :=
    writeKept_of_allTrue (s := readChunk (s.cfg.chunk * k) t) (keptOfChunk (chunkBytes s k)) h.answers
  refine ⟨u, by rw [hbuf, hu], ?_, hanswers, ?_, ?_⟩
  · exact Nat.lt_of_not_le fun hle => Nat.not_le.2 hmore (chunkCount_le_iff.1 hle)
  · rw [hwritten, readChunk_dst, h.written, keptOfChunks_succ, List.append_assoc]
  · rw [hframe, h.frame]
    rfl

/-- The loop of COPY_ENC copies all chunks, given as many passes as there are bytes left. -/
theorem copyEncLoop_copies {s t : State} {k fuel : Nat} (h : ChunksCopied s k t)
    (hfuel : s.srclen.toNat ≤ s.cfg.chunk * k + fuel) :
    ∃ u, copyEncLoop fuel (s.cfg.chunk * k) t = .go u ∧ ChunksCopied s (chunkCount s) u := by
  induction fuel generalizing k t with
  | zero => exact ⟨t, rfl, h.all_of_end hfuel ▸ h⟩
  | succ fuel ih =>
    have hlen : t.srclen = s.srclen := by rw [h.frame]
    have hcfg : t.cfg = s.cfg := by rw [h.frame]
    rw [copyEncLoop, hlen, hcfg]
    by_cases hend : s.srclen.toNat ≤ s.cfg.chunk * k
    · exact ⟨t, if_pos hend, h.all_of_end hend ▸ h⟩
    · obtain ⟨u, hu, hpass⟩ := h.pass (Nat.lt_of_not_le hend)
      have hstep := chunk_pos s.cfg
      rw [if_neg hend]
      dsimp only
      rw [hu, go_andThen, ← Nat.mul_succ]
      exact ih hpass (by rw [Nat.mul_succ]; omega)

theorem execCopyEnc_copies {s : State} (h : AllAnswersTrue s) (hpos : s.srcpos = 0#64) :
    ∃ t, exec .copyEnc s = .next (setPc .finish t) ∧ ChunksCopied s (chunkCount s) t := by
  obtain ⟨t, hloop, ht⟩ := copyEncLoop_copies (fuel := s.srclen.toNat) (.start h hpos) (Nat.le_add_left _ _)
  refine ⟨t, ?_, ht⟩
  rw [exec, execCopyEnc, hpos, BitVec.toNat_zero, Nat.sub_zero]
  exact congrArg (Flow.endPhase .finish) hloop

/-- Settles O46: the loop's invariant after the last chunk. -/
theorem copyEncKeepsTheChunkRule : Obligations.CopyEncKeepsTheChunkRule := by
  intro s h hpos
  obtain ⟨t, hexec, ht⟩ := execCopyEnc_copies h hpos
  refine ⟨_, hexec, ?_, ?_⟩
  · rw [setPc_dst, ht.written, keptOfChunks]
    simp only [keptOfChunk_chunkBytes]
    rfl
  · conv_lhs => rw [ht.frame]
    rfl

/-! ### What a chunk really holds (R189) -/

/-- The source bytes of chunk `c`, without the padding. -/
def sourceOfChunk (s : State) (c : Nat) : List Byte :=
  memRead (c * s.cfg.chunk) (min s.cfg.chunk (s.srclen.toNat - c * s.cfg.chunk)) s

theorem memRead_of_end {s : State} {a : Nat} (h : s.srclen.toNat ≤ a) (n : Nat) :
    memRead a n s = List.replicate n 0#8 := by
  rw [memRead_eq_map_srcByte, List.eq_replicate_iff]
  refine ⟨by simp, fun b hb => ?_⟩
  obtain ⟨k, -, rfl⟩ := List.mem_map.1 hb
  exact srcByte_of_end (by omega)

theorem chunkBytes_eq_padded (s : State) (c : Nat) :
    ∃ j, chunkBytes s c = sourceOfChunk s c ++ List.replicate j 0#8 := by
  obtain ⟨j, hj⟩ := Nat.exists_eq_add_of_le (Nat.min_le_left s.cfg.chunk (s.srclen.toNat - c * s.cfg.chunk))
  refine ⟨j, ?_⟩
  have hread : chunkBytes s c = sourceOfChunk s c ++
      memRead (c * s.cfg.chunk + min s.cfg.chunk (s.srclen.toNat - c * s.cfg.chunk)) j s := by
    rw [sourceOfChunk, ← memRead_add, ← hj, chunkBytes]
  by_cases hfull : j = 0
  · rw [hread, hfull]
    rfl
  · rw [hread, memRead_of_end (by omega)]

theorem takeWhile_padded (v : List Byte) (j : Nat) :
    (v ++ List.replicate j 0#8).takeWhile (· != 0#8) = v.takeWhile (· != 0#8) := by
  induction v with
  | nil => cases j <;> rfl
  | cons b v ih => simp only [List.cons_append, List.takeWhile_cons, ih]

/-- Of a padded chunk COPY_ENC keeps the source bytes, all of them or those before the first zero. -/
theorem keptOfChunk_padded (v : List Byte) (j : Nat) :
    keptOfChunk (v ++ List.replicate j 0#8) = v ∨
      keptOfChunk (v ++ List.replicate j 0#8) = v.takeWhile (· != 0#8) := by
  rw [keptOfChunk, takeWhile_padded]
  cases j with
  | zero =>
    rw [List.replicate_zero, List.append_nil]
    split
    · exact .inr rfl
    · exact .inl rfl
  | succ j =>
    rw [List.replicate_succ', ← List.append_assoc, List.getLastD_concat, if_pos rfl]
    exact .inr rfl

theorem keptOfChunk_prefix (s : State) (c : Nat) : keptOfChunk (chunkBytes s c) <+: sourceOfChunk s c := by
  obtain ⟨j, hj⟩ := chunkBytes_eq_padded s c
  rw [hj]
  rcases keptOfChunk_padded (sourceOfChunk s c) j with h | h
  · rw [h]
  · rw [h]
    exact List.takeWhile_prefix _

theorem keptOfChunk_of_no_zero {s : State} {c : Nat} (h : ∀ b ∈ sourceOfChunk s c, b ≠ 0#8) :
    keptOfChunk (chunkBytes s c) = sourceOfChunk s c := by
  have hall : (sourceOfChunk s c).takeWhile (· != 0#8) = sourceOfChunk s c :=
    List.takeWhile_eq_self_iff.2 fun b hb => bne_iff_ne.2 (h b hb)
  obtain ⟨j, hj⟩ := chunkBytes_eq_padded s c
  rcases keptOfChunk_padded (sourceOfChunk s c) j with hk | hk
  · rw [hj, hk]
  · rw [hj, hk, hall]

/-- The source up to the end of chunk `k` is the source up to its begin and the chunk's own bytes. -/
theorem memRead_sourceOfChunk (s : State) (k : Nat) :
    memRead 0 (min ((k + 1) * s.cfg.chunk) s.srclen.toNat) s =
      memRead 0 (min (k * s.cfg.chunk) s.srclen.toNat) s ++ sourceOfChunk s k := by
  by_cases hend : s.srclen.toNat ≤ k * s.cfg.chunk
  · have hle : s.srclen.toNat ≤ (k + 1) * s.cfg.chunk := hend.trans (Nat.mul_le_mul_right _ (Nat.le_succ k))
    rw [min_eq_right hend, min_eq_right hle, sourceOfChunk, Nat.sub_eq_zero_of_le hend, Nat.min_zero]
    exact (List.append_nil _).symm
  · have hsum : min ((k + 1) * s.cfg.chunk) s.srclen.toNat =
        k * s.cfg.chunk + min s.cfg.chunk (s.srclen.toNat - k * s.cfg.chunk) := by
      rw [Nat.succ_mul]
      omega
    rw [hsum, memRead_add, min_eq_left (Nat.le_of_not_le hend), Nat.zero_add, sourceOfChunk]

theorem keptOfChunks_length_le (s : State) (k : Nat) :
    (keptOfChunks s k).length ≤ min (k * s.cfg.chunk) s.srclen.toNat := by
  induction k with
  | zero => exact Nat.zero_le _
  | succ k ih =>
    have hsource := congrArg List.length (memRead_sourceOfChunk s k)
    have hkept := (keptOfChunk_prefix s k).length_le
    rw [List.length_append, memRead_length, memRead_length] at hsource
    rw [keptOfChunks_succ, List.length_append]
    omega

theorem keptOfChunks_of_no_zero {s : State} (h : ∀ b ∈ srcBytes s, b ≠ 0#8) (k : Nat) :
    keptOfChunks s k = memRead 0 (min (k * s.cfg.chunk) s.srclen.toNat) s := by
  have hprefix (n : Nat) : memRead 0 (min n s.srclen.toNat) s ⊆ srcBytes s := by
    obtain ⟨m, hm⟩ := Nat.exists_eq_add_of_le (Nat.min_le_right n s.srclen.toNat)
    rw [srcBytes]
    conv_rhs => rw [hm, memRead_add]
    exact List.subset_append_left _ _
  induction k with
  | zero => simp [keptOfChunks, memRead]
  | succ k ih =>
    have hsource := memRead_sourceOfChunk s k
    rw [keptOfChunks_succ, ih, hsource, keptOfChunk_of_no_zero fun b hb => h b (hprefix ((k + 1) * s.cfg.chunk) ?_)]
    rw [hsource]
    exact List.mem_append_right _ hb

/-- The chunks hold the whole source. -/
theorem keptOfChunks_all {s : State} (h : ∀ b ∈ srcBytes s, b ≠ 0#8) : keptOfChunks s (chunkCount s) = srcBytes s := by
  have hall : s.srclen.toNat ≤ chunkCount s * s.cfg.chunk := Nat.mul_comm _ _ ▸ chunkCount_le_iff.1 le_rfl
  rw [keptOfChunks_of_no_zero h, min_eq_right hall, srcBytes]

/-- Settles O47: of each chunk no more is kept than its source bytes, and all of them where none is zero. -/
theorem copyEncIsExactWithoutZeroBytes : Obligations.CopyEncIsExactWithoutZeroBytes := by
  intro s h hpos
  obtain ⟨t, hexec, ht⟩ := execCopyEnc_copies h hpos
  exact ⟨_, _, hexec, rfl, ht.written, (keptOfChunks_length_le s _).trans (Nat.min_le_right _ _), keptOfChunks_all⟩

end Sys2Proof.Machine

namespace Sys2Proof.Machine

/-! ### Runs of several steps -/

/-- The machine gets from `s` to `t` in `n` steps. -/
def Advances (n : Nat) (s t : State) : Prop := ∀ k, steps (k + n) s = steps k t

theorem Advances.of_step {s t : State} (h : step s = .next t) : Advances 1 s t := fun k => by
  simp [steps, h]

theorem Advances.trans {m n : Nat} {s t u : State} (h : Advances m s t) (h' : Advances n t u) :
    Advances (n + m) s u := fun k => by
  rw [← Nat.add_assoc, h, h']

theorem steps_of_rest {s : State} (h : step s = .next s) (k : Nat) : steps k s = .next s := by
  induction k with
  | zero => rfl
  | succ k ih => rw [Advances.of_step h, ih]

theorem Advances.steps_of_rest {n k : Nat} {s t : State} (h : Advances n s t) (hrest : step t = .next t)
    (hn : n ≤ k) : steps k s = .next t := by
  obtain ⟨j, rfl⟩ := Nat.exists_eq_add_of_le' hn
  rw [h, Machine.steps_of_rest hrest]

/-! ### A command from rest (R180, R244) -/

/-- The state a command is accepted in: the source bound and measured. -/
def requested (bytes : List Byte) (s : State) : State :=
  { s with inputs := [], src := Memory.ofBytes bytes, srclen := BitVec.ofNat 64 bytes.length }

theorem command_of_rest {s t : State} {cmd : Size} {i : Instr} (bytes : List Byte) (hrest : s.status.busy = false)
    (hdec : decode .cmdw (cmd.toNat % 256) = .instr i) (ht : exec i (requested bytes s) = .next t) :
    command cmd bytes s = steps 10 t := by
  have hbind : step { s with inputs := request cmd bytes } =
      .next { s with inputs := (request cmd bytes).drop 1, src := Memory.ofBytes bytes } := by
    rw [step_of_event rfl, hostEvent, bindSource]
    exact if_neg (by simp [hrest])
  have hlen : step { s with inputs := (request cmd bytes).drop 1, src := Memory.ofBytes bytes } =
      .next { requested bytes s with inputs := (request cmd bytes).drop 2 } := by
    rw [step_of_event rfl]
    exact congrArg Host.Outcome.next (writeSrclen_of_rest _ hrest)
  have hcmd : step { requested bytes s with inputs := (request cmd bytes).drop 2 } = .next t := by
    rw [step_of_event rfl]
    exact (writeCmd_of_decode hdec _).trans ht
  exact (((Advances.of_step hbind).trans (.of_step hlen)).trans (.of_step hcmd)) 10

/-- An operation on the source bytes `src` is about to run its phase `i`, with the bytes `out` written so far, in an
environment that answers true. -/
structure Operating (c : Config) (src : List Byte) (i : Instr) (out : List Byte) (s : State) : Prop where
  inputs : s.inputs = []
  source : s.src = Memory.ofBytes src
  srclen : s.srclen.toNat = src.length
  cfg : s.cfg = c
  answers : AllAnswersTrue s
  phase : s.phase = i.phaseCode
  written : Memory.bytes s.dst = out

/-- The host's command starts an operation on its bytes. -/
theorem command_starts {s : State} {cmd : Size} {op : BitVec 2} {i : Instr} {bytes : List Byte}
    (hrest : s.status.busy = false) (hanswers : AllAnswersTrue s) (hlen : bytes.length < 2 ^ 64)
    (hdec : decode .cmdw (cmd.toNat % 256) = .instr i) (hexec : ∀ u, exec i u = .next (acceptCommand op u)) :
    ∃ t, command cmd bytes s = steps 10 t ∧ Operating s.cfg bytes .init (Memory.bytes s.dst) t ∧ t.op = op := by
  have haccept := acceptCommand_of_rest op (s := requested bytes s) hrest
  refine ⟨_, command_of_rest bytes hrest hdec ((hexec _).trans (congrArg _ haccept)), ?_, rfl⟩
  exact
    { inputs := rfl
      source := rfl
      srclen := by rw [setPc_srclen]; exact Nat.mod_eq_of_lt hlen
      cfg := rfl
      answers := hanswers
      phase := rfl
      written := rfl }

section Phases
variable {c : Config} {src out out' : List Byte} {i j : Instr} {s t : State}

theorem Operating.step_eq (h : Operating c src i out s) (hformat : i.format = .phase) : step s = exec i s :=
  step_of_phase hformat h.inputs h.phase

/-- A phase that ends at `j` hands the operation on. -/
theorem Operating.handOn (h : Operating c src i out s) (hformat : i.format = .phase) (ht : exec i s = .next t)
    (hanswers : AllAnswersTrue t) (hphase : t.phase = j.phaseCode) (hwritten : Memory.bytes t.dst = out') :
    Advances 1 s t ∧ Operating c src j out' t := by
  have hkept := hostSideKept_exec ht
  refine ⟨.of_step ((h.step_eq hformat).trans ht), ?_⟩
  exact
    { inputs := hkept.inputs.trans h.inputs
      source := hkept.src.trans h.source
      srclen := (congrArg BitVec.toNat hkept.srclen).trans h.srclen
      cfg := hkept.cfg.trans h.cfg
      answers := hanswers
      phase := hphase
      written := hwritten }

/-- The source read whole. -/
theorem Operating.srcBytes_eq (h : Operating c src i out s) : srcBytes s = src := by
  rw [srcBytes, h.srclen]
  exact memRead_ofBytes h.source h.srclen

theorem Operating.memRead_rest (h : Operating c src i out s) (p : Nat) (hp : p ≤ src.length) :
    memRead p (s.srclen.toNat - p) s = src.drop p := by
  rw [h.srclen, memRead_eq_take_drop h.source h.srclen (by omega)]
  exact List.take_of_length_le (by simp)

/-- The operation has ended in DONE, with the bytes `out` written. -/
structure Completed (c : Config) (out : List Byte) (t : State) : Prop where
  rests : step t = .next t
  succeeded : Succeeded t
  notBusy : t.status.busy = false
  answers : AllAnswersTrue t
  cfg : t.cfg = c
  written : Memory.bytes t.dst = out

/-! ### The phases common to all sequences -/

theorem Operating.init (h : Operating c src .init out s) :
    ∃ t, Advances 1 s t ∧ Operating c src (if s.op = 1#2 then .wrMagic else .rdMagic) [] t ∧
      t.srcpos = 0#64 ∧ t.dstlen = 0#64 ∧ t.nodes = initialNodes := by
  have hexec := execInit_of_open (nextAnswer_of_allTrue h.answers)
  have hstarted : AllAnswersTrue (setPc (if s.op = 1#2 then .wrMagic else .rdMagic)
      (startOperation (newDestination (popAnswer s)))) := by
    have := allTrue_popAnswer h.answers
    simpa [AllAnswersTrue] using this
  obtain ⟨hadvance, hnext⟩ := h.handOn rfl hexec hstarted rfl (out' := []) (by simp)
  exact ⟨_, hadvance, hnext, by simp, by simp, by simp⟩

theorem Operating.finish (h : Operating c src .finish out s) :
    ∃ t, Advances 1 s t ∧ Completed c out t ∧ t.huff = s.huff := by
  obtain ⟨hyes, -⟩ := finishFlushesAndReleases s
  have hexec := hyes (nextAnswer_of_allTrue h.answers)
  obtain ⟨hadvance, hnext⟩ := h.handOn (j := .done) rfl hexec (allTrue_popAnswer h.answers) rfl h.written
  refine ⟨_, hadvance, ?_, rfl⟩
  exact
    { rests := hnext.step_eq rfl
      succeeded := ⟨rfl, rfl⟩
      notBusy := rfl
      answers := hnext.answers
      cfg := hnext.cfg
      written := hnext.written }

end Phases

end Sys2Proof.Machine

namespace Sys2Proof.Machine

section HeaderPhases
variable {c : Config} {src out : List Byte} {s : State}

/-! ### The header written: INIT, WR_MAGIC, DECIDE, WR_FLAG -/

/-- The five bytes an archive begins with (R84, R85). -/
def header (c : Config) (huff : Bool) : List Byte := c.magicBytes ++ [flagByte huff]

theorem Operating.writeMagic (h : Operating c src .wrMagic out s) :
    ∃ t, Advances 1 s t ∧ Operating c src .decideMode (out ++ c.magicBytes) t ∧
      t.srcpos = s.srcpos ∧ t.nodes = s.nodes := by
  have hexec := execWrMagic_of_answer (nextAnswer_of_allTrue h.answers)
  obtain ⟨hadvance, hnext⟩ := h.handOn rfl hexec (allTrue_popAnswer h.answers) rfl (bytes_extend _ _)
  rw [popAnswer_dst, h.written, h.cfg] at hnext
  exact ⟨_, hadvance, h.cfg ▸ hnext, rfl, rfl⟩

theorem Operating.decide (h : Operating c src .decideMode out s) :
    ∃ t, Advances 1 s t ∧ Operating c src .wrFlag out t ∧
      t.huff = favorable src.length c.width.bytes ∧ t.srcpos = s.srcpos ∧ t.nodes = s.nodes := by
  obtain ⟨hadvance, hnext⟩ := h.handOn rfl (execDecideMode_eq s) h.answers rfl h.written
  exact ⟨_, hadvance, hnext, by rw [setPc_huff, setHuff_huff, h.srclen, h.cfg], rfl, rfl⟩

theorem Operating.writeFlag (h : Operating c src .wrFlag out s) :
    ∃ t, Advances 1 s t ∧ Operating c src (if s.huff then .freq else .copyEnc) (out ++ [flagByte s.huff]) t ∧
      t.huff = s.huff ∧ t.srcpos = s.srcpos ∧ t.nodes = s.nodes := by
  have hexec := execWrFlag_of_answer (nextAnswer_of_allTrue h.answers)
  obtain ⟨hadvance, hnext⟩ := h.handOn rfl hexec (allTrue_popAnswer h.answers) rfl (bytes_extend _ _)
  rw [popAnswer_dst, h.written] at hnext
  exact ⟨_, hadvance, hnext, rfl, rfl, rfl⟩

/-- The four phases ARCHIVE begins with choose the mode by the length alone (R184). -/
theorem Operating.encodeHeader (h : Operating c src .init out s) (hop : s.op = 1#2) {huff : Bool}
    (hmode : favorable src.length c.width.bytes = huff) :
    ∃ t, Advances 4 s t ∧ Operating c src (if huff then .freq else .copyEnc) (header c huff) t ∧
      t.huff = huff ∧ t.srcpos = 0#64 ∧ t.nodes = initialNodes := by
  obtain ⟨t1, ha1, h1, hpos1, -, hnodes1⟩ := h.init
  rw [if_pos hop] at h1
  obtain ⟨t2, ha2, h2, hpos2, hnodes2⟩ := h1.writeMagic
  obtain ⟨t3, ha3, h3, hhuff3, hpos3, hnodes3⟩ := h2.decide
  obtain ⟨t4, ha4, h4, hhuff4, hpos4, hnodes4⟩ := h3.writeFlag
  have hhuff : t3.huff = huff := hhuff3.trans hmode
  rw [hhuff] at h4 hhuff4
  exact ⟨t4, ((ha1.trans ha2).trans ha3).trans ha4, h4, hhuff4, by rw [hpos4, hpos3, hpos2, hpos1],
    by rw [hnodes4, hnodes3, hnodes2, hnodes1]⟩

/-! ### The header read: INIT, RD_MAGIC, RD_FLAG -/

@[simp] theorem header_length (c : Config) (huff : Bool) : (header c huff).length = 5 := rfl

@[simp] theorem flagByte_bit (huff : Bool) : (flagByte huff).getLsbD 0 = huff := by
  cases huff <;> rfl

theorem Operating.memRead_prefix {i : Instr} {v body : List Byte} (h : Operating c (v ++ body) i out s) :
    memRead 0 v.length s = v := by
  rw [memRead_eq_take_drop h.source h.srclen (by simp), List.drop_zero, List.take_left]

theorem Operating.readMagic {body : List Byte} (h : Operating c (c.magicBytes ++ body) .rdMagic out s) :
    ∃ t, Advances 1 s t ∧ Operating c (c.magicBytes ++ body) .rdFlag out t := by
  have hlen : 4 ≤ s.srclen.toNat := by
    rw [h.srclen, List.length_append]
    exact Nat.le_add_right 4 _
  have hmagic : memRead 0 4 s = s.cfg.magicBytes := by
    rw [h.cfg]
    exact h.memRead_prefix
  exact ⟨_, h.handOn rfl (execRdMagic_of_magic hlen hmagic) h.answers rfl h.written⟩

theorem Operating.readFlag {huff : Bool} {body : List Byte} (h : Operating c (header c huff ++ body) .rdFlag out s) :
    ∃ t, Advances 1 s t ∧
      Operating c (header c huff ++ body) (if huff then .deserialize else .copyDec) out t ∧ t.srcpos = 5#64 := by
  have hlen : 5 ≤ s.srclen.toNat := by
    rw [h.srclen, List.length_append]
    exact Nat.le_add_right 5 _
  have hflag : srcByte s 4 = flagByte huff := by
    have hheader := h.memRead_prefix
    rw [header_length, show 5 = 4 + 1 from rfl, memRead_add] at hheader
    obtain ⟨-, hbyte⟩ := List.append_inj hheader (memRead_length _ _ _)
    rw [srcByte, hbyte]
    rfl
  have hexec := execRdFlag_of_length hlen
  rw [hflag, flagByte_bit] at hexec
  obtain ⟨hadvance, hnext⟩ := h.handOn rfl hexec h.answers rfl h.written
  exact ⟨_, hadvance, hnext, rfl⟩

/-- The three phases UNARCHIVE of an archive begins with choose the mode by its flag byte (R192). -/
theorem Operating.decodeHeader {huff : Bool} {body : List Byte}
    (h : Operating c (header c huff ++ body) .init out s) (hop : s.op = 2#2) :
    ∃ t, Advances 3 s t ∧
      Operating c (header c huff ++ body) (if huff then .deserialize else .copyDec) [] t ∧ t.srcpos = 5#64 := by
  obtain ⟨t1, ha1, h1, -⟩ := h.init
  rw [if_neg (by rw [hop]; decide), header, List.append_assoc] at h1
  obtain ⟨t2, ha2, h2⟩ := h1.readMagic
  rw [← List.append_assoc] at h2
  obtain ⟨t3, ha3, h3, hpos⟩ := Operating.readFlag h2
  exact ⟨t3, (ha1.trans ha2).trans ha3, h3, hpos⟩

/-! ### The verbatim side: COPY_ENC and COPY_DEC -/

theorem Operating.copyEnc (h : Operating c src .copyEnc out s) (hpos : s.srcpos = 0#64) (hzero : ∀ b ∈ src, b ≠ 0#8) :
    ∃ t, Advances 1 s t ∧ Operating c src .finish (out ++ src) t ∧ t.huff = s.huff := by
  obtain ⟨t, hexec, ht⟩ := execCopyEnc_copies h.answers hpos
  have hsrc := h.srcBytes_eq
  have hwritten : Memory.bytes t.dst = out ++ src := by
    rw [ht.written, keptOfChunks_all (hsrc ▸ hzero), hsrc, h.written]
  obtain ⟨hadvance, hnext⟩ := h.handOn rfl hexec ht.answers rfl hwritten
  exact ⟨_, hadvance, hnext, by rw [setPc_huff, ht.frame]⟩

theorem Operating.copyDec (h : Operating c src .copyDec out s) (hpos : s.srcpos.toNat ≤ src.length) :
    ∃ t, Advances 1 s t ∧ Operating c src .finish (out ++ src.drop s.srcpos.toNat) t := by
  obtain ⟨t, hexec, ht⟩ := execCopyDec_copies h.answers (by rw [h.srclen]; exact hpos)
  have hwritten : Memory.bytes t.dst = out ++ src.drop s.srcpos.toNat := by
    rw [ht.written, h.memRead_rest _ hpos, h.written]
  obtain ⟨hadvance, hnext⟩ := h.handOn rfl hexec ht.answers rfl hwritten
  exact ⟨_, hadvance, hnext⟩

end HeaderPhases

/-! ### Commands run to rest -/

section Commands
variable {s : State} {bytes : List Byte}

theorem archive_starts (hrest : s.status.busy = false) (hanswers : AllAnswersTrue s) (hlen : bytes.length < 2 ^ 64) :
    ∃ t, command 1#64 bytes s = steps 10 t ∧ Operating s.cfg bytes .init (Memory.bytes s.dst) t ∧ t.op = 1#2 :=
  command_starts (i := .archive) hrest hanswers hlen rfl fun _ => rfl

theorem unarchive_starts (hrest : s.status.busy = false) (hanswers : AllAnswersTrue s)
    (hlen : bytes.length < 2 ^ 64) :
    ∃ t, command 2#64 bytes s = steps 10 t ∧ Operating s.cfg bytes .init (Memory.bytes s.dst) t ∧ t.op = 2#2 :=
  command_starts (i := .unarchive) hrest hanswers hlen rfl fun _ => rfl

/-- ARCHIVE of a short source without a zero byte: the header, then the source (R184, R188). -/
theorem archive_verbatim (hrest : s.status.busy = false) (hanswers : AllAnswersTrue s) (hlen : bytes.length < 2 ^ 64)
    (hshort : bytes.length ≤ 512 * s.cfg.width.bytes) (hzero : ∀ b ∈ bytes, b ≠ 0#8) :
    ∃ t, command 1#64 bytes s = .next t ∧ Completed s.cfg (header s.cfg false ++ bytes) t ∧ t.huff = false := by
  obtain ⟨t0, hcommand, h0, hop⟩ := archive_starts hrest hanswers hlen
  have hmode : favorable bytes.length s.cfg.width.bytes = false :=
    Bool.eq_false_iff.2 fun hlong => Nat.not_le.2 ((favorable_iff _ _).1 hlong) hshort
  obtain ⟨t1, ha1, h1, hhuff1, hpos, -⟩ := h0.encodeHeader hop hmode
  obtain ⟨t2, ha2, h2, hhuff2⟩ := Operating.copyEnc h1 hpos hzero
  obtain ⟨t3, ha3, hdone, hhuff3⟩ := h2.finish
  refine ⟨t3, ?_, hdone, by rw [hhuff3, hhuff2, hhuff1]⟩
  rw [hcommand, ((ha1.trans ha2).trans ha3).steps_of_rest hdone.rests (by decide)]

/-- UNARCHIVE of a header with a zero flag: what follows the header (R194). -/
theorem unarchive_verbatim (hrest : s.status.busy = false) (hanswers : AllAnswersTrue s)
    (hlen : (header s.cfg false ++ bytes).length < 2 ^ 64) :
    ∃ t, command 2#64 (header s.cfg false ++ bytes) s = .next t ∧ Completed s.cfg bytes t := by
  obtain ⟨t0, hcommand, h0, hop⟩ := unarchive_starts hrest hanswers hlen
  obtain ⟨t1, ha1, h1, hpos⟩ := h0.decodeHeader hop
  have hpos5 : t1.srcpos.toNat = 5 := by rw [hpos]; rfl
  obtain ⟨t2, ha2, h2⟩ := Operating.copyDec h1 (by rw [hpos5]; simp)
  rw [hpos5, List.nil_append, List.drop_left' (header_length _ _)] at h2
  obtain ⟨t3, ha3, hdone, -⟩ := h2.finish
  refine ⟨t3, ?_, hdone⟩
  rw [hcommand, ((ha1.trans ha2).trans ha3).steps_of_rest hdone.rests (by decide)]

/-- A short archive comes back: UNARCHIVE with the parameters ARCHIVE had. -/
theorem verbatim_comes_back (hrest : s.status.busy = false) (hanswers : AllAnswersTrue s)
    (hshort : bytes.length ≤ 512 * s.cfg.width.bytes) (hzero : ∀ b ∈ bytes, b ≠ 0#8) :
    ∃ t u, command 1#64 bytes s = .next t ∧ Completed s.cfg (header s.cfg false ++ bytes) t ∧ t.huff = false ∧
      command 2#64 (Memory.bytes t.dst) t = .next u ∧ Completed s.cfg bytes u := by
  have hwidth : s.cfg.width.bytes ≤ 8 := by cases s.cfg.width <;> decide
  obtain ⟨t, ht, hdone, hhuff⟩ := archive_verbatim hrest hanswers (by omega) hshort hzero
  obtain ⟨u, hu, hback⟩ := unarchive_verbatim (bytes := bytes) hdone.notBusy hdone.answers
    (by rw [List.length_append, header_length]; omega)
  rw [hdone.cfg, ← hdone.written] at hu
  exact ⟨t, u, ht, hdone, hhuff, hu, hdone.cfg ▸ hback⟩

end Commands

/-- Settles O58: ARCHIVE ends with the header and the source written, and UNARCHIVE with what follows the header. -/
theorem verbatimRoundTrip : Obligations.VerbatimRoundTrip := by
  intro s bytes hrest hanswers hshort hzero
  obtain ⟨t, u, ht, hdone, -, hu, hback⟩ := verbatim_comes_back hrest hanswers hshort hzero
  exact ⟨t, u, ht, hdone.succeeded, hdone.written, hu, hback.succeeded, hback.written⟩

/-! ### A file without the magic (R190, R191) -/

/-- RD_MAGIC on a source that does not begin with the magic, short or not. -/
theorem execRdMagic_formatMismatch {s : State} {bytes : List Byte} (hsrc : s.src = Memory.ofBytes bytes)
    (hlen : s.srclen.toNat = bytes.length) (hm : bytes.take 4 ≠ s.cfg.magicBytes) :
    ∃ t, exec .rdMagic s = .next (takeError .formatMismatch t) ∧ t.dst = s.dst ∧ t.dstlen = s.dstlen := by
  by_cases hshort : s.srclen.toNat < 4
  · exact ⟨s, execRdMagic_of_short hshort, rfl, rfl⟩
  · refine ⟨_, execRdMagic_of_foreign (Nat.not_lt.1 hshort) ?_, rfl, rfl⟩
    rwa [memRead_eq_take_drop hsrc hlen (by omega), List.drop_zero]

/-- Settles O57: INIT empties the destination, RD_MAGIC raises, and ERROR rests. -/
theorem unarchiveOfAForeignFileWritesNothing : Obligations.UnarchiveOfAForeignFileWritesNothing := by
  intro s bytes hrest hanswers hlen hforeign
  obtain ⟨t0, hcommand, h0, hop⟩ := unarchive_starts hrest hanswers hlen
  obtain ⟨t1, ha1, h1, -, hdstlen, -⟩ := h0.init
  rw [if_neg (by rw [hop]; decide)] at h1
  obtain ⟨t2, hexec, hdst2, hdstlen2⟩ := execRdMagic_formatMismatch h1.source h1.srclen (by rw [h1.cfg]; exact hforeign)
  have hdst : (takeError .formatMismatch t2).dst = [] := by
    have := h1.written
    rw [takeError_dst, hdst2]
    exact List.map_eq_nil_iff.1 this
  have hkept := hostSideKept_exec hexec
  have hrests : step (takeError .formatMismatch t2) = .next (takeError .formatMismatch t2) :=
    step_of_phase (i := .error) rfl (hkept.inputs.trans h1.inputs) rfl
  refine ⟨_, ?_, rfl, rfl, hdst, hdstlen2.trans hdstlen⟩
  rw [hcommand, (ha1.trans (.of_step ((h1.step_eq rfl).trans hexec))).steps_of_rest hrests (by decide)]

end Sys2Proof.Machine

namespace Sys2Proof.Machine

/-! ### The counts FREQ leaves (R112) -/

theorem occurrences_eq_card (s : State) (sym : Nat) : occurrences s sym =
    (((Finset.range s.srclen.toNat).filter fun p => countedAt s p = true).filter
      fun p => (srcByte s p).toNat = sym).card := by
  rw [Finset.filter_filter, occurrences, ← List.toFinset_card_of_nodup (List.nodup_range.filter _)]
  congr 1
  ext p
  simp [and_comm]

/-- Each position is counted for one symbol at most. -/
theorem sum_occurrences_le (s : State) : ∑ sym ∈ Finset.range 256, occurrences s sym ≤ s.srclen.toNat := by
  have hbytes : ∀ p ∈ (Finset.range s.srclen.toNat).filter (fun p => countedAt s p = true),
      (srcByte s p).toNat ∈ Finset.range 256 := fun p _ => Finset.mem_range.2 (srcByte s p).isLt
  simp only [occurrences_eq_card]
  rw [← Finset.card_eq_sum_card_fiberwise hbytes]
  exact (Finset.card_filter_le _ _).trans_eq (Finset.card_range _)

theorem leafWeight_eq_sum (n : NodeTable) :
    leafWeight n = ∑ i ∈ (activeBelow n 256).toFinset, (getCount n.count i).toInt :=
  (List.sum_toFinset _ (activeBelow_nodup n 256)).symm

/-- What FREQ leaves from INIT's table and at most 2^31 − 2 bytes: a counted table (R110 to R114). -/
theorem execFreq_counted {s : State} (hpos : s.srcpos = 0#64) (hlen : s.srclen.toNat ≤ 2 ^ 31 - 2)
    (hnodes : s.nodes = initialNodes) :
    ∃ t, exec .freq s = .next t ∧ Counted t.nodes ∧
      (∀ sym : Nat, 1 ≤ sym → sym < 256 → (getCount t.nodes.count sym).toInt = occurrences s sym) ∧
      t = { s with nodes := t.nodes, buf := t.buf, phase := 6#5, srcpos := t.srcpos } := by
  obtain ⟨t, ht, hcounts, hzero, hslots, hframe⟩ := freqCountsTheBytesBeforeAZero s hpos hlen fun i hi => by
    rw [hnodes]
    exact getCount_initialNodes hi
  have hterminator : (getCount t.nodes.count 0).toInt = 1 := by rw [hzero]; rfl
  have hcount : ∀ i, i < 256 → (getCount t.nodes.count i).toInt ≤ (if i = 0 then 1 else 0) + (occurrences s i : Int) ∧
      0 ≤ (getCount t.nodes.count i).toInt := fun i hi => by
    by_cases h0 : i = 0
    · subst h0
      rw [hterminator, if_pos rfl]
      omega
    · rw [hcounts i (by omega) hi, if_neg h0]
      omega
  refine ⟨t, ht, ?_, hcounts, ?_⟩
  · constructor
    case startLinks =>
      have := congrArg State.nodes hframe
      rw [← hnodes]
      exact this
    case terminator => exact hterminator
    case leaves => exact fun i hi => (hcount i hi).2
    case slots => exact hslots
    case bounded =>
      have hsub : (activeBelow t.nodes 256).toFinset ⊆ Finset.range 256 := fun i hi =>
        Finset.mem_range.2 (mem_activeBelow.1 (List.mem_toFinset.1 hi)).1
      have hsum := sum_occurrences_le s
      calc leafWeight t.nodes
          = ∑ i ∈ (activeBelow t.nodes 256).toFinset, (getCount t.nodes.count i).toInt := leafWeight_eq_sum _
        _ ≤ ∑ i ∈ Finset.range 256, (getCount t.nodes.count i).toInt :=
            Finset.sum_le_sum_of_subset_of_nonneg hsub fun i hi _ => (hcount i (Finset.mem_range.1 hi)).2
        _ ≤ ∑ i ∈ Finset.range 256, ((if i = 0 then 1 else 0) + (occurrences s i : Int)) :=
            Finset.sum_le_sum fun i hi => (hcount i (Finset.mem_range.1 hi)).1
        _ = 1 + ((∑ i ∈ Finset.range 256, occurrences s i : Nat) : Int) := by
            rw [Finset.sum_add_distrib, Finset.sum_ite_eq' (Finset.range 256) 0 fun _ => (1 : Int), Nat.cast_sum]
            rfl
        _ ≤ cntMax := by
            rw [cntMax]
            omega
  · rw [hframe]

/-- In a source without a zero byte every byte is counted. -/
theorem occurrences_pos {s : State} {b : Byte} (hzero : ∀ x ∈ srcBytes s, x ≠ 0#8) (hb : b ∈ srcBytes s) :
    0 < occurrences s b.toNat := by
  have hmem (p : Nat) (hp : p < s.srclen.toNat) : srcByte s p ∈ srcBytes s := by
    rw [srcBytes, memRead_eq_map_srcByte]
    exact List.mem_map.2 ⟨p, List.mem_range.2 hp, by rw [Nat.zero_add]⟩
  rw [srcBytes, memRead_eq_map_srcByte] at hb
  obtain ⟨p, hp, rfl⟩ := List.mem_map.1 hb
  rw [List.mem_range] at hp
  rw [Nat.zero_add]
  have hcounted : countedAt s p = true := List.all_eq_true.2 fun j hj => by
    have hle : p / s.cfg.chunk * s.cfg.chunk + j ≤ p := by
      have := Nat.div_add_mod' p s.cfg.chunk
      have := List.mem_range.1 hj
      omega
    exact bne_iff_ne.2 (hzero _ (hmem _ (by omega)))
  exact List.length_pos_of_mem (List.mem_filter.2 ⟨List.mem_range.2 hp, by simp [hcounted]⟩)

end Sys2Proof.Machine

namespace Sys2Proof.Machine

/-! ### The Huffman side of ARCHIVE: FREQ, BUILD, SERIALIZE, CODEGEN, PACK -/

theorem tableOk_of_counted (w : IdxWidth) {n : NodeTable} (h : Counted n) : TableOk w n := by
  have hinitial := tableOk_initialNodes w
  rw [h.startLinks]
  exact ⟨hinitial.nextFreeRange, hinitial.leftFits, hinitial.rightFits, hinitial.parentFits, hinitial.rootFits⟩

/-- The bits lead from the root to the leaf, through internal nodes only (R154). -/
def LeadsToLeaf (n : NodeTable) (bits : List Bool) (b : Byte) : Prop :=
  follow n n.root bits = b.toNat ∧
    ∀ k, k < bits.length → 256 ≤ follow n n.root (bits.take k) ∧ follow n n.root (bits.take k) ≤ 511

/-- The bytes begin with codes of the source bytes in order and a code of the terminator (R89). -/
def IsPayload (n : NodeTable) (src v : List Byte) : Prop :=
  ∃ (code : Byte → List Bool) (rest : List Bool),
    (∀ b, b = 0#8 ∨ b ∈ src → LeadsToLeaf n (code b) b) ∧
      v.flatMap byteBits = src.flatMap code ++ code 0#8 ++ rest

section EncodePhases
variable {c : Config} {src out : List Byte} {s : State}

theorem Operating.freq (h : Operating c src .freq out s) (hpos : s.srcpos = 0#64) (hnodes : s.nodes = initialNodes)
    (hlen : src.length ≤ 2 ^ 31 - 2) (hzero : ∀ b ∈ src, b ≠ 0#8) :
    ∃ t, Advances 1 s t ∧ Operating c src .build out t ∧ t.huff = s.huff ∧ Counted t.nodes ∧
      ∀ b ∈ src, isActive (getCount t.nodes.count b.toNat) = true := by
  obtain ⟨t, hexec, hcounted, hcounts, hframe⟩ := execFreq_counted hpos (h.srclen ▸ hlen) hnodes
  have hanswers : AllAnswersTrue t := by rw [hframe]; exact h.answers
  have hwritten : Memory.bytes t.dst = out := by rw [hframe]; exact h.written
  obtain ⟨hadvance, hnext⟩ := h.handOn (j := .build) rfl hexec hanswers (by rw [hframe]; rfl) hwritten
  refine ⟨t, hadvance, hnext, by rw [hframe], hcounted, fun b hb => ?_⟩
  have hsrc := h.srcBytes_eq
  have hnonzero : b.toNat ≠ 0 := fun h0 => hzero b hb (BitVec.eq_of_toNat_eq h0)
  have hoccurs := occurrences_pos (s := s) (b := b) (hsrc ▸ hzero) (hsrc ▸ hb)
  rw [isActive_iff, hcounts _ (Nat.pos_of_ne_zero hnonzero) b.isLt]
  exact Int.natCast_pos.2 hoccurs

theorem Operating.build (h : Operating c src .build out s) (hcounted : Counted s.nodes)
    (hsome : ∃ x : Nat, 1 ≤ x ∧ x < 256 ∧ isActive (getCount s.nodes.count x) = true) :
    ∃ t, Advances 1 s t ∧ Operating c src .serialize out t ∧ t.huff = s.huff ∧ BuiltTree t.nodes ∧
      TableOk c.width t.nodes ∧
      ∀ i : Nat, i < 256 → isActive (getCount s.nodes.count i) = true → getLink t.nodes.parent i ≠ noNode := by
  obtain ⟨t, hexec, hframe, htree, -, -, -, -, hleaves, -⟩ := buildMakesTheTreeOfTheInvariants s hcounted hsome
  have hanswers : AllAnswersTrue t := by rw [hframe]; exact h.answers
  have hwritten : Memory.bytes t.dst = out := by rw [hframe]; exact h.written
  have hphase : t.phase = 7#5 := by rw [hframe]
  obtain ⟨hadvance, hnext⟩ := h.handOn (j := .serialize) rfl hexec hanswers hphase hwritten
  have htable : TableOk c.width t.nodes := by
    rcases execBuild_cases hexec with ⟨-, rfl | ⟨x, rfl⟩⟩
    · exact tableOk_buildLoop (tableOk_of_counted c.width hcounted)
    · exact absurd hphase (by simp)
  exact ⟨t, hadvance, hnext, by rw [hframe], htree, htable, fun i hi hactive => (hleaves i hi).2.2 hactive⟩

theorem allTrue_drop {t : State} (h : AllAnswersTrue s) {n : Nat} (ht : t.answers = s.answers.drop n)
    (hafter : t.answersAfter = s.answersAfter) : AllAnswersTrue t :=
  ⟨fun b hb => h.1 b (List.mem_of_mem_drop (ht ▸ hb)), hafter.trans h.2⟩

theorem Operating.serialize (h : Operating c src .serialize out s) :
    ∃ t, Advances 1 s t ∧ Operating c src .codegen (out ++ treeBlock c.width c.endian s.nodes) t ∧
      t.huff = s.huff ∧ t.nodes = s.nodes := by
  obtain ⟨t, hexec, hdst, -, hframe⟩ := execSerialize_of_allTrue h.answers
  have hanswers : AllAnswersTrue t :=
    allTrue_drop h.answers (congrArg State.answers hframe) (by rw [hframe])
  have hwritten : Memory.bytes t.dst = out ++ treeBlock c.width c.endian s.nodes := by
    rw [hdst, bytes_extend, h.written, h.cfg]
  obtain ⟨hadvance, hnext⟩ := h.handOn rfl hexec hanswers rfl hwritten
  exact ⟨_, hadvance, hnext, by rw [setPc_huff, hframe], by rw [setPc_nodes, hframe]⟩

theorem Operating.codegen (h : Operating c src .codegen out s) (htree : BuiltTree s.nodes) :
    ∃ t, Advances 1 s t ∧ Operating c src .pack out t ∧ t.huff = s.huff ∧
      (∀ b : Byte, (getCode t.code b).length ≤ 255) ∧
      ∀ b : Byte, getLink s.nodes.parent b.toNat ≠ noNode → LeadsToLeaf s.nodes (getCode t.code b) b := by
  obtain ⟨t, hexec, hleads⟩ := codesLeadFromTheRootToTheirLeaf s htree
  obtain ⟨cs, hcodes, rfl⟩ := execCodegen_cases hexec
  obtain ⟨hadvance, hnext⟩ := h.handOn rfl hexec h.answers rfl h.written
  exact ⟨_, hadvance, hnext, rfl, getCode_codegen_length hcodes, hleads⟩

theorem Operating.pack (h : Operating c src .pack out s) :
    ∃ t v, Advances 1 s t ∧ Operating c src .finish (out ++ v) t ∧ t.huff = s.huff ∧
      v.length = (src.flatMap (getCode s.code) ++ getCode s.code 0#8).length / 8 + 1 ∧
      ∃ rest, v.flatMap byteBits = src.flatMap (getCode s.code) ++ getCode s.code 0#8 ++ rest := by
  obtain ⟨t, v, bits, rfl, hexec, hdst, hlen, hbits, -, -, hframe⟩ := packWritesThePayloadBits s h.answers
  rw [h.srcBytes_eq] at hlen hbits
  have hanswers : AllAnswersTrue t :=
    allTrue_drop h.answers (congrArg State.answers hframe) (by rw [hframe])
  obtain ⟨hadvance, hnext⟩ := h.handOn (j := .finish) rfl hexec hanswers (congrArg State.phase hframe)
    (hdst.trans (by rw [h.written]))
  refine ⟨t, v, hadvance, hnext, by rw [hframe], hlen, ?_⟩
  rw [List.take_append, List.take_of_length_le (by omega)] at hbits
  exact ⟨_, hbits⟩

/-- Codes of at most 255 bits make a payload of at most 32 bytes a symbol. -/
theorem payload_length_le {code : Byte → List Bool} (h : ∀ b, (code b).length ≤ 255) (src : List Byte) :
    (src.flatMap code ++ code 0#8).length / 8 + 1 ≤ 32 * src.length + 33 := by
  have hsum : (src.flatMap code).length ≤ 255 * src.length := by
    induction src with
    | nil => exact Nat.zero_le _
    | cons b src ih =>
      have := h b
      rw [List.flatMap_cons, List.length_append, List.length_cons]
      omega
  have := h 0#8
  rw [List.length_append]
  omega

/-- The five phases of Huffman mode write the block of a tree and a payload for it. -/
theorem Operating.encodeBody (h : Operating c src .freq out s) (hpos : s.srcpos = 0#64)
    (hnodes : s.nodes = initialNodes) (hne : src ≠ []) (hlen : src.length ≤ 2 ^ 31 - 2)
    (hzero : ∀ b ∈ src, b ≠ 0#8) :
    ∃ t n v, Advances 5 s t ∧ Operating c src .finish (out ++ treeBlock c.width c.endian n ++ v) t ∧
      t.huff = s.huff ∧ BuiltTree n ∧ TableOk c.width n ∧ IsPayload n src v ∧ v.length ≤ 32 * src.length + 33 := by
  obtain ⟨t1, ha1, h1, hhuff1, hcounted, hactive⟩ := h.freq hpos hnodes hlen hzero
  obtain ⟨b, hb⟩ := List.exists_mem_of_ne_nil src hne
  have hsome : ∃ x : Nat, 1 ≤ x ∧ x < 256 ∧ isActive (getCount t1.nodes.count x) = true :=
    ⟨b.toNat, Nat.pos_of_ne_zero fun h0 => hzero b hb (BitVec.eq_of_toNat_eq h0), b.isLt, hactive b hb⟩
  obtain ⟨t2, ha2, h2, hhuff2, htree, htable, hpresent⟩ := h1.build hcounted hsome
  obtain ⟨t3, ha3, h3, hhuff3, hnodes3⟩ := h2.serialize
  obtain ⟨t4, ha4, h4, hhuff4, hbound, hleads⟩ := h3.codegen (hnodes3 ▸ htree)
  obtain ⟨t5, v, ha5, h5, hhuff5, hvlen, rest, hbits⟩ := h4.pack
  rw [hnodes3] at hleads
  refine ⟨t5, t2.nodes, v, (((ha1.trans ha2).trans ha3).trans ha4).trans ha5, h5,
    by rw [hhuff5, hhuff4, hhuff3, hhuff2, hhuff1], htree, htable, ⟨getCode t4.code, rest, ?_, hbits⟩,
    hvlen.trans_le (payload_length_le hbound src)⟩
  rintro b (rfl | hb)
  · exact hleads _ (hpresent 0 (by decide) ((isActive_iff _).2 (by rw [hcounted.terminator]; decide)))
  · exact hleads b (hpresent _ b.isLt (hactive b hb))

end EncodePhases

/-! ### The walk over a payload (R165, R169) -/

/-- Two tables have the same links in their internal slots, and the same root. -/
structure SameTree (n m : NodeTable) : Prop where
  root : m.root = n.root
  links : ∀ i : Nat, 256 ≤ i → i < 512 → getLink m.left i = getLink n.left i ∧ getLink m.right i = getLink n.right i

theorem SameTree.child_eq {n m : NodeTable} (h : SameTree n m) {i : Int} (hi : isInternalId i = true) (b : Bool) :
    child m i.toNat b = child n i.toNat b := by
  rw [isInternalId_iff] at hi
  obtain ⟨hl, hr⟩ := h.links i.toNat (by omega) (by omega)
  cases b
  · exact hl
  · exact hr

/-- A walk from internal nodes sees the internal slots and the root only. -/
theorem SameTree.walkBits_eq {n m : NodeTable} (h : SameTree n m) (hroot : isInternalId n.root = true)
    (bits : List Bool) {i : Int} (hi : isInternalId i = true) : walkBits m i bits = walkBits n i bits := by
  induction bits generalizing i with
  | nil => rfl
  | cons b bits ih =>
    have hchild := h.child_eq hi b
    by_cases hid : isNodeId (child n i.toNat b) = true
    · rw [walkBits_of_node hid, walkBits_of_node (hchild ▸ hid), hchild, h.root, ih hroot]
      split
      · rfl
      · split
        · rfl
        next hleaf =>
          rw [isNodeId_iff] at hid
          exact ih (isInternalId_iff.2 ⟨by omega, hid.2⟩)
    · rw [walkBits_of_missing hid, walkBits_of_missing (hchild ▸ hid)]

/-- Bits that lead through internal nodes to a leaf, then more bits: the walk comes to the leaf. -/
theorem walkBits_of_path {n : NodeTable} {i : Int} {bits : List Bool} {b : Byte} (hne : bits ≠ [])
    (hleaf : follow n i bits = b.toNat)
    (hinner : ∀ k, k < bits.length → 256 ≤ follow n i (bits.take k) ∧ follow n i (bits.take k) ≤ 511)
    (rest : List Bool) :
    walkBits n i (bits ++ rest) =
      if b = 0#8 then ([], .stopped rest.length)
      else (b :: (walkBits n n.root rest).1, (walkBits n n.root rest).2) := by
  induction bits generalizing i with
  | nil => exact absurd rfl hne
  | cons x bits ih =>
    have hfirst (l : List Bool) : follow n i (x :: l) = follow n (child n i.toNat x) l := rfl
    cases bits with
    | nil =>
      have hchild : child n i.toNat x = b.toNat := hleaf
      have hb := b.isLt
      rw [List.singleton_append, walkBits_of_node (isNodeId_iff.2 (by omega)), hchild]
      by_cases h0 : b = 0#8
      · rw [if_pos h0, if_pos (by rw [h0]; rfl)]
      · have hb0 : b.toNat ≠ 0 := fun hz => h0 (BitVec.eq_of_toNat_eq hz)
        rw [if_neg h0, if_neg (by omega), if_pos (by omega), BitVec.ofInt_natCast, BitVec.ofNat_toNat,
          BitVec.setWidth_eq]
    | cons y bits =>
      obtain ⟨hlow, hhigh⟩ : 256 ≤ child n i.toNat x ∧ child n i.toNat x ≤ 511 := hinner 1 (by simp)
      rw [List.cons_append, walkBits_of_node (isNodeId_iff.2 (by omega)), if_neg (by omega), if_neg (by omega)]
      exact ih (by simp) hleaf fun k hk => hinner (k + 1) (by simpa using hk)

theorem LeadsToLeaf.ne_nil {n : NodeTable} {bits : List Bool} {b : Byte} (h : LeadsToLeaf n bits b)
    (hroot : 256 ≤ n.root) : bits ≠ [] := by
  rintro rfl
  have hleaf : n.root = b.toNat := h.1
  have := b.isLt
  omega

/-- The walk over a payload emits the source and stops at the terminator. -/
theorem walkBits_of_isPayload {n : NodeTable} {src v : List Byte} (h : IsPayload n src v) (hroot : 256 ≤ n.root)
    (hzero : ∀ b ∈ src, b ≠ 0#8) : ∃ k, walkBits n n.root (v.flatMap byteBits) = (src, .stopped k) := by
  obtain ⟨code, rest, hleads, hbits⟩ := h
  refine ⟨rest.length, ?_⟩
  have hstep (b : Byte) (hb : b = 0#8 ∨ b ∈ src) (bits : List Bool) :=
    walkBits_of_path ((hleads b hb).ne_nil hroot) (hleads b hb).1 (hleads b hb).2 bits
  rw [hbits]
  clear hbits hleads
  induction src with
  | nil => exact (hstep 0#8 (.inl rfl) rest).trans (if_pos rfl)
  | cons b src ih =>
    have hrest := ih (fun x hx => hzero x (List.mem_cons_of_mem _ hx))
      fun x hx => hstep x (hx.imp_right (List.mem_cons_of_mem _))
    rw [List.flatMap_cons, List.append_assoc, List.append_assoc, hstep b (.inr List.mem_cons_self),
      if_neg (hzero b List.mem_cons_self), ← List.append_assoc, hrest]

end Sys2Proof.Machine

namespace Sys2Proof.Machine

/-! ### The Huffman side of UNARCHIVE: DESERIALIZE, UNPACK -/

theorem allTrue_unpackRule : UnpackRule AllAnswersTrue AllAnswersTrue where
  append _ _ h := allTrue_popAnswer h
  appendFails _ h := allTrue_popAnswer h
  start _ h := h
  fetch _ _ h := h
  takeBit _ h _ := h
  stand _ _ h _ := h
  toRoot _ h := h
  starved _ h := h
  inconsistent _ h := h

section DecodePhases
variable {c : Config} {src before after out v : List Byte} {n : NodeTable} {s : State}

theorem Operating.deserialize
    (h : Operating c (before ++ treeBlock c.width c.endian n ++ after) .deserialize out s)
    (hpos : s.srcpos.toNat = before.length) (hn : TableOk c.width n) :
    ∃ t, Advances 1 s t ∧ Operating c (before ++ treeBlock c.width c.endian n ++ after) .unpack out t ∧
      t.srcpos.toNat = (before ++ treeBlock c.width c.endian n).length ∧ SameTree n t.nodes := by
  obtain rfl := h.cfg
  have hwritten : ∃ t, exec .serialize { s with nodes := n } = .next t ∧
      Memory.bytes t.dst = Memory.bytes s.dst ++ treeBlock s.cfg.width s.cfg.endian n := by
    obtain ⟨t, ht, hdst, -, -⟩ := execSerialize_of_allTrue (s := { s with nodes := n }) h.answers
    exact ⟨_, ht, by rw [setPc_dst, hdst, bytes_extend]⟩
  obtain ⟨t, hexec, hphase, hroot, hlinks⟩ := treeSurvivesTheArchive { s with nodes := n } s before _ after h.answers
    hn.leftFits hn.rightFits hn.parentFits hn.rootFits rfl rfl hwritten h.source h.srclen hpos
  have hsame : SameTree n t.nodes := ⟨hroot, fun i hlow hhigh =>
    have ⟨hleft, hright, _⟩ := hlinks i hlow hhigh
    ⟨hleft, hright⟩⟩
  have hfits : s.srcpos.toNat + 769 * s.cfg.width.bytes ≤ s.srclen.toNat := by
    rw [hpos, h.srclen, List.length_append, List.length_append, treeBlock_length]
    exact Nat.le_add_right _ _
  obtain ⟨t', hexec', -, -, -, hend, hframe⟩ := (deserializeLoadsTheTreeBlock s).2 hfits
  obtain rfl := Host.Outcome.next.inj (hexec'.symm.trans hexec)
  have hanswers : AllAnswersTrue t' := by rw [hframe]; exact h.answers
  have hkept : Memory.bytes t'.dst = out := by rw [hframe]; exact h.written
  obtain ⟨hadvance, hnext⟩ := h.handOn (j := .unpack) rfl hexec hanswers hphase hkept
  exact ⟨_, hadvance, hnext, by rw [hend, hpos, List.length_append, treeBlock_length], hsame⟩

theorem Operating.unpack (h : Operating c (before ++ v) .unpack out s) (hpos : s.srcpos.toNat = before.length)
    (htree : BuiltTree n) (hsame : SameTree n s.nodes) (hpayload : IsPayload n src v) (hzero : ∀ b ∈ src, b ≠ 0#8) :
    ∃ t, Advances 1 s t ∧ Operating c (before ++ v) .finish (out ++ src) t := by
  have hcreated := htree.created
  have hroot := htree.rootIsLast
  have hinternal : isInternalId n.root = true := isInternalId_iff.2 (by omega)
  have hin : s.srcpos.toNat ≤ (before ++ v).length := by rw [hpos, List.length_append]; omega
  obtain ⟨t, hexec, hdst, hend⟩ := unpackFollowsThePayloadBits s h.answers (by rw [hsame.root]; omega)
    (by rw [hsame.root]; omega) (by rw [h.srclen]; exact hin)
  obtain ⟨k, hwalk⟩ := walkBits_of_isPayload hpayload (by omega) hzero
  rw [h.memRead_rest _ hin, hpos, List.drop_left, hsame.root, hsame.walkBits_eq hinternal _ hinternal, hwalk]
    at hdst hend
  obtain ⟨hphase, -⟩ := hend
  have hanswers : AllAnswersTrue t := execUnpack_leads allTrue_unpackRule (fun _ hu => hu) hexec h.answers
  exact ⟨t, h.handOn rfl hexec hanswers hphase (by rw [hdst, h.written])⟩

end DecodePhases

section HuffmanCommands
variable {s : State} {bytes : List Byte}

/-- ARCHIVE of a long source without a zero byte: the header, the block of a tree, a payload for it. -/
theorem archive_huffman (hrest : s.status.busy = false) (hanswers : AllAnswersTrue s)
    (hlong : 512 * s.cfg.width.bytes < bytes.length) (hlen : bytes.length ≤ 2 ^ 31 - 2) (hzero : ∀ b ∈ bytes, b ≠ 0#8) :
    ∃ t n v, command 1#64 bytes s = .next t ∧ t.huff = true ∧
      Completed s.cfg (header s.cfg true ++ treeBlock s.cfg.width s.cfg.endian n ++ v) t ∧
      BuiltTree n ∧ TableOk s.cfg.width n ∧ IsPayload n bytes v ∧ v.length ≤ 32 * bytes.length + 33 := by
  obtain ⟨t0, hcommand, h0, hop⟩ := archive_starts (bytes := bytes) hrest hanswers (by omega)
  obtain ⟨t1, ha1, h1, hhuff1, hpos, hnodes⟩ := h0.encodeHeader hop ((favorable_iff _ _).2 hlong)
  have hne : bytes ≠ [] := List.ne_nil_of_length_pos (by omega)
  obtain ⟨t2, n, v, ha2, h2, hhuff2, htree, htable, hpayload, hvlen⟩ :=
    Operating.encodeBody h1 hpos hnodes hne hlen hzero
  obtain ⟨t3, ha3, hdone, hhuff3⟩ := h2.finish
  refine ⟨t3, n, v, ?_, by rw [hhuff3, hhuff2, hhuff1], hdone, htree, htable, hpayload, hvlen⟩
  rw [hcommand, ((ha1.trans ha2).trans ha3).steps_of_rest hdone.rests (by decide)]

/-- UNARCHIVE of a header with a flag, the block of a tree and a payload for it: the source of the payload. -/
theorem unarchive_huffman {n : NodeTable} {v : List Byte} (hrest : s.status.busy = false)
    (hanswers : AllAnswersTrue s) (htree : BuiltTree n) (htable : TableOk s.cfg.width n)
    (hpayload : IsPayload n bytes v) (hzero : ∀ b ∈ bytes, b ≠ 0#8)
    (hlen : (header s.cfg true ++ treeBlock s.cfg.width s.cfg.endian n ++ v).length < 2 ^ 64) :
    ∃ t, command 2#64 (header s.cfg true ++ treeBlock s.cfg.width s.cfg.endian n ++ v) s = .next t ∧
      Completed s.cfg bytes t := by
  obtain ⟨t0, hcommand, h0, hop⟩ := unarchive_starts hrest hanswers hlen
  rw [List.append_assoc] at h0
  obtain ⟨t1, ha1, h1, hpos1⟩ := h0.decodeHeader hop
  rw [← List.append_assoc] at h1
  obtain ⟨t2, ha2, h2, hpos2, hsame⟩ := Operating.deserialize h1 (by rw [hpos1]; rfl) htable
  obtain ⟨t3, ha3, h3⟩ := h2.unpack hpos2 htree hsame hpayload hzero
  obtain ⟨t4, ha4, hdone, -⟩ := h3.finish
  refine ⟨t4, ?_, hdone⟩
  rw [hcommand, (((ha1.trans ha2).trans ha3).trans ha4).steps_of_rest hdone.rests (by decide)]

/-- A long archive comes back: UNARCHIVE with the parameters ARCHIVE had. -/
theorem huffman_comes_back (hrest : s.status.busy = false) (hanswers : AllAnswersTrue s)
    (hlong : 512 * s.cfg.width.bytes < bytes.length) (hlen : bytes.length ≤ 2 ^ 31 - 2) (hzero : ∀ b ∈ bytes, b ≠ 0#8) :
    ∃ t u, command 1#64 bytes s = .next t ∧ Succeeded t ∧ t.huff = true ∧
      command 2#64 (Memory.bytes t.dst) t = .next u ∧ Completed s.cfg bytes u := by
  have hwidth : s.cfg.width.bytes ≤ 8 := by cases s.cfg.width <;> decide
  obtain ⟨t, n, v, ht, hhuff, hdone, htree, htable, hpayload, hvlen⟩ :=
    archive_huffman hrest hanswers hlong hlen hzero
  have hfits : (header s.cfg true ++ treeBlock s.cfg.width s.cfg.endian n ++ v).length < 2 ^ 64 := by
    rw [List.length_append, List.length_append, header_length, treeBlock_length]
    omega
  rw [← hdone.cfg] at htable hfits
  obtain ⟨u, hu, hback⟩ := unarchive_huffman hdone.notBusy hdone.answers htree htable hpayload hzero hfits
  rw [hdone.cfg] at hu hback
  exact ⟨t, u, ht, hdone.succeeded, hhuff, by rw [hdone.written, hu], hback⟩

end HuffmanCommands

/-- Settles O59: the two modes, by the length. -/
theorem archiveRoundTrip : Obligations.ArchiveRoundTrip := by
  intro s bytes hrest hanswers hlen hzero
  by_cases hlong : 512 * s.cfg.width.bytes < bytes.length
  · obtain ⟨t, u, ht, hdone, hhuff, hu, hback⟩ := huffman_comes_back hrest hanswers hlong hlen hzero
    exact ⟨t, u, ht, hdone, iff_of_true hhuff hlong, hu, hback.succeeded, hback.written⟩
  · obtain ⟨t, u, ht, hdone, hhuff, hu, hback⟩ :=
      verbatim_comes_back hrest hanswers (Nat.le_of_not_lt hlong) hzero
    exact ⟨t, u, ht, hdone.succeeded, iff_of_false (by simp [hhuff]) hlong, hu, hback.succeeded, hback.written⟩

end Sys2Proof.Machine

/-! SUPPORT. Proofs for the family of spec/60_exceptions.md: what taking an error writes (O12) and which operations are
the sources of which error (O13). -/

namespace Sys2Proof.Machine

/-! ### Taking an error (R213) -/

/-- Settles O12: the fields `raise` writes, and the number of each error. -/
theorem raiseRecordsTheErrorAndNothingElse : Obligations.RaiseRecordsTheErrorAndNothingElse := by
  refine fun x s => ⟨rfl, ?_⟩
  rw [takeError_errcode]
  cases x <;> rfl

/-! ### The error table (R211) -/

/-- The row of the error table: which operations are sources of the error. -/
def ErrorSource : ErrCode → Instr → Prop
  | .formatMismatch, i => i = .rdMagic ∨ ∃ m, i = .hdrMagic m
  | .insufficientData, i => i = .rdFlag ∨ i = .deserialize ∨ i = .unpack ∨ ∃ n, i = .nodeInternal n
  | .structuralInconsistency, i => i = .unpack ∨ ∃ n, i = .nodeInternal n
  | .capacityExceeded, i => i = .build
  | .ioFailure, i => i = .init ∨ i = .wrMagic ∨ i = .wrFlag ∨ i = .serialize ∨ i = .pack ∨ i = .copyEnc ∨
      i = .unpack ∨ i = .copyDec ∨ i = .finish ∨ ∃ n, i = .nodeSymbol n
  | .countOverflow, i => i = .freq ∨ i = .build

/-- No error is recorded. -/
def NoError (s : State) : Prop := s.errcode = 0#3

/-- Operation `i` has recorded no error, or has taken one whose row names it. -/
def EndsAsNamed (i : Instr) (t : State) : Prop := NoError t ∨ ∃ x s, ErrorSource x i ∧ t = takeError x s

theorem endsAsNamed_takeError {x : ErrCode} {i : Instr} (h : ErrorSource x i) (s : State) :
    EndsAsNamed i (takeError x s) :=
  .inr ⟨x, s, h, rfl⟩

theorem endsAsNamed_setPc {i : Instr} (j : Instr) (s : State) (h : NoError s) : EndsAsNamed i (setPc j s) := .inl h

/-- A step that writes no PHASE of its own. -/
theorem endsAsNamed_of_toOutcome {i : Instr} {r : Flow} {t : State} (hr : r.Ends NoError (EndsAsNamed i))
    (ht : r.toOutcome = .next t) : EndsAsNamed i t := by
  cases r with
  | go s =>
    cases ht
    exact .inl hr
  | raised s =>
    cases ht
    exact hr

theorem noError_acceptCommand (op : BitVec 2) {s : State} (h : NoError s) : NoError (acceptCommand op s) := by
  unfold acceptCommand
  split
  · exact h
  · rfl

/-! ### The errors of the operations with a loop -/

section OnIOFailure
variable {i : Instr} (hio : ErrorSource .ioFailure i)
include hio

theorem named_appendRule : AppendRule NoError (EndsAsNamed i) where
  append _ _ h := h
  appendFails _ _ := endsAsNamed_takeError hio _

theorem named_packRule : PackRule NoError (EndsAsNamed i) where
  toAppendRule := named_appendRule hio
  position _ _ h := h
  shift _ _ h := h
  clear _ h := h

theorem named_copyEncRule : CopyEncRule NoError (EndsAsNamed i) where
  toAppendRule := named_appendRule hio
  read _ _ h := h

theorem named_copyDecRule : CopyDecRule NoError (EndsAsNamed i) where
  toAppendRule := named_appendRule hio
  position _ _ h := h

end OnIOFailure

theorem named_freqRule : FreqRule NoError (EndsAsNamed .freq) where
  read _ _ h := h
  count _ h := h
  overflow _ _ := endsAsNamed_takeError (by simp [ErrorSource]) _

theorem named_unpackRule : UnpackRule NoError (EndsAsNamed .unpack) where
  toAppendRule := named_appendRule (by simp [ErrorSource])
  start _ h := h
  fetch _ _ h := h
  takeBit _ h _ := h
  stand _ _ h _ := h
  toRoot _ h := h
  starved _ _ := endsAsNamed_takeError (by simp [ErrorSource]) _
  inconsistent _ _ := endsAsNamed_takeError (by simp [ErrorSource]) _

/-- The two errors of BUILD: no slot left (R124), or a sum past CNT_MAX (R122). -/
theorem buildLoop_error {free : Nat} {n : NodeTable} {x : ErrCode} (h : (buildLoop free n).2 = some x) :
    ErrorSource x .build := by
  obtain ⟨_, -, hends⟩ := buildLoop_ends (I := fun _ _ => True) (fun _ _ _ _ _ _ _ _ => trivial) free (n := n) trivial
  rcases hends with ⟨hnone, -⟩ | ⟨hfull, -⟩ | ⟨hover, -⟩
  · cases h.symm.trans hnone
  · cases h.symm.trans hfull
    rfl
  · cases h.symm.trans hover
    exact .inr rfl

theorem execBuild_named {s t : State} (ht : exec .build s = .next t) (hs : NoError s) : EndsAsNamed .build t := by
  rw [exec, execBuild] at ht
  split at ht
  · cases ht
  · refine of_endPhase (P := NoError) ?_ (endsAsNamed_setPc _) ht
    unfold storeNodes
    split
    · exact hs
    next herr => exact endsAsNamed_takeError (buildLoop_error herr) _

/-! ### The errors of the selector rows -/

theorem testMagic_named {i : Instr} (hsrc : ErrorSource .formatMismatch i) (m : List Byte) {s : State}
    (hs : NoError s) : (testMagic m s).Ends NoError (EndsAsNamed i) := by
  unfold testMagic
  split
  · exact hs
  · exact endsAsNamed_takeError hsrc s

theorem emit_named {i : Instr} (hio : ErrorSource .ioFailure i) (sym : Byte) {s : State} (hs : NoError s) :
    (emit sym s).Ends NoError (EndsAsNamed i) :=
  (memWrite_ends (named_appendRule hio) _ hs).andThen fun _ hu => hu

theorem standAt_named {i : Instr} (hsrc : ErrorSource .structuralInconsistency i) (c : Int) {s : State}
    (hs : NoError s) : (standAt c s).Ends NoError (EndsAsNamed i) := by
  unfold standAt
  split
  · exact hs
  · exact endsAsNamed_takeError hsrc _

/-- One walk step by itself makes no request, so it has no IOFailure (R165, R167, R168). -/
theorem descend_named (slot : BitVec 8) (i : Nat) {s : State} (hs : NoError s) :
    (descend i s).Ends NoError (EndsAsNamed (.nodeInternal slot)) := by
  have hstand : ErrorSource .structuralInconsistency (.nodeInternal slot) := .inr ⟨slot, rfl⟩
  by_cases hq : s.nbq = 0#4
  · rcases refill_of_empty hq with hraise | ⟨b, hfetch⟩
    · rw [descend, hraise]
      exact endsAsNamed_takeError (by simp [ErrorSource]) s
    · rw [descend_of_refill i hfetch]
      exact standAt_named hstand _ hs
  · rw [descend_of_refill i (refill_of_bits hq)]
    exact standAt_named hstand _ hs

/-! ### Every operation -/

theorem exec_endsAsNamed {i : Instr} {s t : State} (ht : exec i s = .next t) (hs : NoError s) : EndsAsNamed i t := by
  have hends (j : Instr) := endsAsNamed_setPc (i := i) j
  cases i with
  | archive | unarchive =>
    cases ht
    exact .inl (noError_acceptCommand _ hs)
  | idle | done | error | decideMode | hdrFlagHuff | hdrFlagVerb | nodeTerminator =>
    cases ht
    exact .inl hs
  | init =>
    rcases execInit_cases ht with rfl | rfl
    · exact .inl (by simpa [NoError] using hs)
    · exact endsAsNamed_takeError (by simp [ErrorSource]) _
  | wrMagic => exact execWrMagic_leads (named_appendRule (by simp [ErrorSource])) (hends _) ht hs
  | wrFlag => exact execWrFlag_leads (named_appendRule (by simp [ErrorSource])) (fun j u hu _ => hends j u hu) ht hs
  | freq => exact execFreq_leads named_freqRule (hends _) ht hs
  | build => exact execBuild_named ht hs
  | serialize => exact execSerialize_leads (named_appendRule (by simp [ErrorSource])) (hends _) ht hs
  | codegen =>
    obtain ⟨cs, -, rfl⟩ := execCodegen_cases ht
    exact .inl hs
  | pack => exact execPack_leads (named_packRule (by simp [ErrorSource])) (hends _) ht hs
  | copyEnc => exact execCopyEnc_leads (named_copyEncRule (by simp [ErrorSource])) (hends _) ht hs
  | rdMagic =>
    rcases execRdMagic_cases ht with rfl | rfl | rfl
    · exact .inl hs
    · exact endsAsNamed_takeError (by simp [ErrorSource]) _
    · exact endsAsNamed_takeError (by simp [ErrorSource]) _
  | rdFlag =>
    rcases execRdFlag_cases ht with ⟨b, rfl⟩ | rfl
    · exact .inl hs
    · exact endsAsNamed_takeError (by simp [ErrorSource]) _
  | deserialize =>
    rcases execDeserialize_cases ht with rfl | rfl
    · exact .inl (by simpa [NoError, loadTree] using hs)
    · exact endsAsNamed_takeError (by simp [ErrorSource]) _
  | unpack => exact execUnpack_leads named_unpackRule (hends _) ht hs
  | copyDec => exact execCopyDec_leads (named_copyDecRule (by simp [ErrorSource])) (hends _) ht hs
  | finish =>
    rcases execFinish_cases ht with rfl | rfl
    · exact .inl hs
    · exact endsAsNamed_takeError (by simp [ErrorSource]) _
  | hdrMagic m => exact endsAsNamed_of_toOutcome (testMagic_named (.inr ⟨m, rfl⟩) _ hs) ht
  | nodeSymbol sym => exact endsAsNamed_of_toOutcome (emit_named (by simp [ErrorSource]) sym hs) ht
  | nodeInternal slot => exact endsAsNamed_of_toOutcome (descend_named slot _ hs) ht

/-- Settles O13: an error recorded was taken by `exec`, and its row names the operation. -/
theorem everyErrorComesFromItsOperations : Obligations.EveryErrorComesFromItsOperations := by
  intro i s t ht hs hne
  obtain ⟨x, u, hsrc, rfl⟩ := (exec_endsAsNamed ht hs).resolve_left hne
  refine ⟨rfl, rfl, ?_⟩
  cases x with
  | formatMismatch => exact .inl ⟨rfl, hsrc⟩
  | insufficientData => exact .inr (.inl ⟨rfl, hsrc⟩)
  | structuralInconsistency => exact .inr (.inr (.inl ⟨rfl, hsrc⟩))
  | capacityExceeded => exact .inr (.inr (.inr (.inl ⟨rfl, hsrc⟩)))
  | ioFailure => exact .inr (.inr (.inr (.inr (.inl ⟨rfl, hsrc⟩))))
  | countOverflow => exact .inr (.inr (.inr (.inr (.inr ⟨rfl, hsrc⟩))))

end Sys2Proof.Machine

/-! SUPPORT. Proofs for the family of spec/70_reset_and_hazards.md: every command comes to rest (O56), a source of zero
bytes only (O60), the registers while BUSY (O9), hardware reset (O10). -/

namespace Sys2Proof.Machine

/-! ### The tables of a command keep BUILD and CODEGEN from faulting (R151, R252) -/

/-- A table that INIT wrote and FREQ may have counted in: no links, and the counts FREQ does not touch as at the start
(R110, R111). Unlike `Counted` it bounds no count, so it holds whatever the length of the source. -/
structure ScannedTable (n : NodeTable) : Prop where
  startLinks : n = { initialNodes with count := n.count }
  otherCounts : ∀ i : Nat, i = 0 ∨ 256 ≤ i → getCount n.count i = getCount initialNodes.count i

theorem scannedTable_initialNodes : ScannedTable initialNodes := ⟨rfl, fun _ _ => rfl⟩

theorem scannedTable_execFreq {s t : State} (h : ScannedTable s.nodes) (ht : exec .freq s = .next t) :
    ScannedTable t.nodes := by
  obtain ⟨-, -, hfreq, -⟩ := encodeOperationsKeepTheAccessTable s t
  obtain ⟨hframe, hcounts⟩ := hfreq ht
  have hnodes : t.nodes = { s.nodes with count := t.nodes.count } := by
    conv_lhs => rw [hframe]
  refine ⟨?_, fun i hi => (hcounts i hi).trans (h.otherCounts i hi)⟩
  rw [h.startLinks] at hnodes
  exact hnodes

theorem merging_of_scannedTable {n : NodeTable} (h : ScannedTable n) : Merging n n := by
  have hterminator : 0 ∈ activeBelow n 256 := by
    rw [mem_activeBelow, h.otherCounts 0 (.inl rfl), getCount_initialNodes (by decide)]
    decide
  refine merging_of_inactive_slots (by rw [h.startLinks]; rfl) (fun i hi h512 => ?_) (List.length_pos_of_mem hterminator)
  rw [h.otherCounts i (.inr hi), getCount_initialNodes h512, if_neg (by omega)]
  rfl

theorem climbing_of_no_parents {n : NodeTable} (h : ∀ i : Nat, i < 512 → getLink n.parent i = noNode) : Climbing n :=
  fun i hi hparent => absurd (h i hi) hparent

theorem parent_of_scannedTable {n : NodeTable} (h : ScannedTable n) {i : Nat} (hi : i < 512) :
    getLink n.parent i = noNode := by
  rw [h.startLinks]
  exact getLink_replicate _ hi

/-- A merge into a slot below 511 gives two nodes a parent, of a larger id than theirs (R26 (e)). -/
theorem climbing_of_merged {n m : NodeTable} {a b : Nat} (h : Climbing n) (hp : ActivePair n a b) (hm : Merged n a b m)
    (hf : 256 ≤ n.nextFree.toNat ∧ n.nextFree.toNat ≤ 510) : Climbing m := fun i hi hparent => by
  obtain ⟨-, ⟨haf, -⟩, ⟨hbf, -⟩, -, -⟩ := hp
  by_cases hia : i = a
  · exact ⟨_, hia ▸ hm.parentLeft, hia ▸ haf, hf⟩
  · by_cases hib : i = b
    · exact ⟨_, hib ▸ hm.parentRight, hib ▸ hbf, hf⟩
    · rw [hm.parentOther i hia hib] at hparent ⊢
      exact h i hi hparent

/-- At most 256 nodes are active at the start and each merge takes one off, so every merge finds a slot below 511. -/
theorem climbing_buildLoop {n : NodeTable} (h : ScannedTable n) : Climbing (buildLoop (512 - n.nextFree.toNat) n).1 := by
  have hstart := merging_of_scannedTable h
  have hrange := hstart.range
  obtain ⟨_, ⟨hclimbing, -, -⟩, -⟩ := buildLoop_ends
    (I := fun free m => Climbing m ∧ Merging n m ∧ m.nextFree.toNat + free = 512)
    (fun free m a b m' ⟨hcm, hgm, hfm⟩ hsel hmerge => by
      have hp := activePair_of_selectPair hsel
      have hm := merged_of_merge hp (by omega) hmerge
      have htwo := length_le_of_activePair hp
      have hcount := hgm.activeCount
      have hleaves := activeBelow_length_le n 256
      refine ⟨climbing_of_merged hcm hp hm ⟨hgm.range.1, by omega⟩, merging_of_merged hgm hp (by omega) hm, ?_⟩
      rw [hm.nextFree]
      omega)
    (512 - n.nextFree.toNat) ⟨climbing_of_no_parents fun _ => parent_of_scannedTable h, hstart, by omega⟩
  exact hclimbing

theorem climbing_execBuild {s t : State} (h : ScannedTable s.nodes) (ht : exec .build s = .next t) :
    Climbing t.nodes := by
  obtain ⟨-, rfl | ⟨x, rfl⟩⟩ := execBuild_cases ht
  · exact climbing_buildLoop h
  · exact climbing_buildLoop h

/-! ### A command under way (R182, R257) -/

/-- How many phases a command that stands at phase `i` runs at most until it rests, `i` counted (R182); none at rest and
for what is no phase. -/
def phasesLeft : Instr → Nat
  | .init => 10
  | .wrMagic => 9
  | .decideMode => 8
  | .wrFlag => 7
  | .freq => 6
  | .build => 5
  | .serialize => 4
  | .codegen => 3
  | .pack | .copyEnc => 2
  | .rdMagic => 5
  | .rdFlag => 4
  | .deserialize => 3
  | .unpack | .copyDec => 2
  | .finish => 1
  | .archive | .unarchive | .idle | .done | .error | .hdrMagic _ | .hdrFlagHuff _ | .hdrFlagVerb _ | .nodeTerminator
  | .nodeSymbol _ | .nodeInternal _ => 0

/-- What phase `i` needs of the node table so that it, and BUILD and CODEGEN after it, have no fault. -/
def TableFor : Instr → NodeTable → Prop
  | .wrMagic, n | .decideMode, n | .wrFlag, n | .freq, n | .build, n => ScannedTable n
  | .serialize, n | .codegen, n => Climbing n
  | _, _ => True

/-- A command is about to run its phase `i`, with nothing scheduled. -/
structure Underway (i : Instr) (s : State) : Prop where
  running : 0 < phasesLeft i
  inputs : s.inputs = []
  phase : s.phase = i.phaseCode
  table : TableFor i s.nodes

/-- The block is no longer BUSY, in DONE or ERROR. -/
def Resting (t : State) : Prop := t.status.busy = false ∧ (t.phase = 17#5 ∨ t.phase = 18#5)

theorem format_of_phasesLeft {i : Instr} (h : 0 < phasesLeft i) : i.format = .phase := by
  cases i with
  | archive | unarchive | hdrMagic | hdrFlagHuff | hdrFlagVerb | nodeTerminator | nodeSymbol | nodeInternal =>
    exact absurd h (Nat.lt_irrefl 0)
  | _ => rfl

/-- No phase of a command has a fault or a refusal: only BUILD and CODEGEN could, and their tables keep them from it. -/
theorem Underway.answers {i : Instr} {s : State} (h : Underway i s) : ∃ t, exec i s = .next t := by
  obtain ⟨hrunning, -, -, htable⟩ := h
  cases i with
  | build =>
    have hfree := (merging_of_scannedTable htable).range.2
    exact ⟨_, by rw [exec, execBuild, if_neg (by omega)]; rfl⟩
  | codegen =>
    obtain ⟨t, ht, -⟩ := execCodegen_of_climbing htable
    exact ⟨t, ht⟩
  | _ => exact ⟨_, rfl⟩

/-- A phase ends at rest, or hands the command on to a phase with fewer phases left. -/
theorem Underway.handsOn {i : Instr} {s t : State} (h : Underway i s) (ht : exec i s = .next t) :
    Resting t ∨ ∃ j, Underway j t ∧ phasesLeft j < phasesLeft i := by
  obtain ⟨hrunning, hinputs, -, htable⟩ := h
  have hin : t.inputs = [] := (hostSideKept_exec ht).inputs.trans hinputs
  have goesOn (j : Instr) : 0 < phasesLeft j ∧ phasesLeft j < phasesLeft i → t.phase = j.phaseCode →
      TableFor j t.nodes → Resting t ∨ ∃ j, Underway j t ∧ phasesLeft j < phasesLeft i :=
    fun ⟨hsome, hfewer⟩ hphase hnext => .inr ⟨j, ⟨hsome, hin, hphase, hnext⟩, hfewer⟩
  obtain ⟨happend, hdecide, -, -, -⟩ := encodeOperationsKeepTheAccessTable s t
  rcases everyOperationHandsOnToItsSuccessor i s t ht with hnext | ⟨herror, -, hbusy⟩
  case inr => exact .inl ⟨hbusy, .inr herror⟩
  cases i with
  | archive | unarchive | idle | done | error | hdrMagic | hdrFlagHuff | hdrFlagVerb | nodeTerminator | nodeSymbol
  | nodeInternal => exact absurd hrunning (Nat.lt_irrefl 0)
  | init =>
    rcases execInit_cases ht with rfl | rfl
    · by_cases hop : s.op = 1#2
      · exact goesOn .wrMagic (by decide) (by simp [hop]) (by simpa [TableFor] using scannedTable_initialNodes)
      · exact goesOn .rdMagic (by decide) (by simp [hop]) trivial
    · exact .inl ⟨rfl, .inr rfl⟩
  | wrMagic =>
    have hnodes : t.nodes = s.nodes := by rw [happend (.inl ht)]
    exact goesOn .decideMode (by decide) hnext (hnodes ▸ htable)
  | decideMode =>
    have hnodes : t.nodes = s.nodes := by rw [hdecide ht]
    exact goesOn .wrFlag (by decide) hnext (hnodes ▸ htable)
  | wrFlag =>
    have hnodes : t.nodes = s.nodes := by rw [happend (.inr (.inl ht))]
    cases hhuff : s.huff with
    | false => exact goesOn .copyEnc (by decide) (hnext.trans (by rw [successor, hhuff]; rfl)) trivial
    | true =>
      exact goesOn .freq (by decide) (hnext.trans (by rw [successor, hhuff]; rfl)) (hnodes ▸ htable)
  | freq => exact goesOn .build (by decide) hnext (scannedTable_execFreq htable ht)
  | build => exact goesOn .serialize (by decide) hnext (climbing_execBuild htable ht)
  | serialize =>
    have hnodes : t.nodes = s.nodes := by rw [happend (.inr (.inr ht))]
    exact goesOn .codegen (by decide) hnext (hnodes ▸ htable)
  | codegen => exact goesOn .pack (by decide) hnext trivial
  | rdMagic => exact goesOn .rdFlag (by decide) hnext trivial
  | rdFlag =>
    cases hhuff : t.huff with
    | false => exact goesOn .copyDec (by decide) (hnext.trans (by rw [successor, hhuff]; rfl)) trivial
    | true => exact goesOn .deserialize (by decide) (hnext.trans (by rw [successor, hhuff]; rfl)) trivial
  | deserialize => exact goesOn .unpack (by decide) hnext trivial
  | pack | copyEnc | unpack | copyDec => exact goesOn .finish (by decide) hnext trivial
  | finish => rcases execFinish_cases ht with rfl | rfl <;> exact .inl ⟨rfl, .inl hnext⟩

theorem step_of_resting {t : State} (h : Resting t) (hin : t.inputs = []) : step t = .next t := by
  obtain ⟨-, hdone | herror⟩ := h
  · obtain ⟨-, hstep, -⟩ := restingStatesTakeNoStep t .done (.inr (.inl rfl))
    exact hstep hdone hin
  · obtain ⟨-, hstep, -⟩ := restingStatesTakeNoStep t .error (.inr (.inr rfl))
    exact hstep herror hin

/-- A command with at most `k` phases left rests after `k` steps. -/
theorem Underway.comesToRest {k : Nat} {i : Instr} {s : State} (h : Underway i s) (hk : phasesLeft i ≤ k) :
    ∃ t, steps k s = .next t ∧ Resting t := by
  induction k generalizing i s with
  | zero => exact absurd h.running (Nat.not_lt.2 hk)
  | succ k ih =>
    obtain ⟨t, ht⟩ := h.answers
    have hadvance : steps (k + 1) s = steps k t :=
      Advances.of_step ((step_of_phase (format_of_phasesLeft h.running) h.inputs h.phase).trans ht) k
    rw [hadvance]
    rcases h.handsOn ht with hrest | ⟨j, hj, hless⟩
    · have hin : t.inputs = [] := (hostSideKept_exec ht).inputs.trans h.inputs
      exact ⟨t, steps_of_rest (step_of_resting hrest hin) k, hrest⟩
    · exact ih hj (by omega)

/-- Settles O56: INIT is the first of at most ten phases. -/
theorem everyCommandComesToRest : Obligations.EveryCommandComesToRest := by
  intro s hphase _ _ hin
  have hstart : Underway .init s := ⟨by decide, hin, hphase, trivial⟩
  obtain ⟨t, ht, hbusy, hrest⟩ := hstart.comesToRest (Nat.le_refl 10)
  exact ⟨t, ht, hbusy, hrest⟩

end Sys2Proof.Machine

namespace Sys2Proof.Machine

/-! ### A source of zero bytes only: FREQ counts nothing (R112, R250) -/

theorem srcByte_mem_srcBytes {s : State} {p : Nat} (h : p < s.srclen.toNat) : srcByte s p ∈ srcBytes s := by
  rw [srcBytes, memRead_eq_map_srcByte]
  exact List.mem_map.2 ⟨p, List.mem_range.2 h, by rw [Nat.zero_add]⟩

theorem srcByte_of_zeros {s : State} (h : ∀ b ∈ srcBytes s, b = 0#8) (p : Nat) : srcByte s p = 0#8 := by
  by_cases hp : p < s.srclen.toNat
  · exact h _ (srcByte_mem_srcBytes hp)
  · exact srcByte_of_end (Nat.not_lt.1 hp)

/-- A chunk that begins with a zero byte leaves every count (R111). -/
theorem scanChunk_readChunk_of_zero {s : State} {pos : Nat} (h : srcByte s pos = 0#8) :
    scanChunk (readChunk pos s).buf (readChunk pos s).nodes.count = (s.nodes.count, false) := by
  rw [readChunk_buf_cons, h, scanChunk_zero]
  rfl

theorem freqLoop_of_zeros {s : State} (fuel pos : Nat) (h : ∀ p, srcByte s p = 0#8) :
    ∃ t, freqLoop fuel pos s = .go t ∧ t = { s with buf := t.buf, srcpos := t.srcpos } := by
  induction fuel generalizing pos s with
  | zero => exact ⟨s, rfl, rfl⟩
  | succ fuel ih =>
    have hscan := scanChunk_readChunk_of_zero (h pos)
    have hsame : countChunk (readChunk pos s) = readChunk pos s := by
      rw [countChunk, hscan]
      rfl
    rw [freqLoop_succ, hscan, hsame]
    split
    · exact ⟨s, rfl, rfl⟩
    · obtain ⟨t, ht, hframe⟩ := ih (s := readChunk pos s) (pos + s.cfg.chunk) h
      refine ⟨t, by simpa using ht, ?_⟩
      conv_lhs => rw [hframe]
      rfl

/-! ### The table of INIT through the phases of ARCHIVE (R125, R135, R163) -/

theorem activeBelow_initialNodes_length : (activeBelow initialNodes 256).length < 2 := by
  have honly : activeBelow initialNodes 256 ⊆ [0] := fun i hi => by
    obtain ⟨hlt, hpos⟩ := mem_activeBelow.1 hi
    rw [getCount_initialNodes (by omega)] at hpos
    by_contra hne
    rw [if_neg (by simpa using hne)] at hpos
    exact absurd hpos (by decide)
  exact Nat.lt_succ_of_le (List.subperm_of_subset (activeBelow_nodup _ _) honly).length_le

/-- NONE in every byte order is bytes of ones (R87). -/
theorem idxBytes_noNode (w : IdxWidth) (e : Endian) : idxBytes w e noNode = List.replicate w.bytes 0xFF#8 := by
  cases w <;> cases e <;> decide

theorem treeFields_initialNodes : treeFields initialNodes = List.replicate 769 noNode := by
  rw [List.eq_replicate_iff]
  refine ⟨treeFields_length _, fun v hv => ?_⟩
  rcases List.mem_append.1 hv with hlinks | hroot
  · obtain ⟨k, hk, hv⟩ := List.mem_flatMap.1 hlinks
    have hlink : getLink (Vector.replicate 512 noNode) (256 + k) = noNode :=
      getLink_replicate _ (by have := List.mem_range.1 hk; omega)
    simpa [initialNodes, hlink] using hv
  · exact List.mem_singleton.1 hroot

theorem treeBlock_initialNodes (w : IdxWidth) (e : Endian) :
    treeBlock w e initialNodes = List.replicate (769 * w.bytes) 0xFF#8 := by
  rw [treeBlock, treeFields_initialNodes, List.map_replicate, idxBytes_noNode, List.flatten_replicate_replicate]

theorem byteBits_eq_zeros {b : Byte} (h : byteBits b = List.replicate 8 false) : b = 0#8 := by
  revert b
  decide

section ZeroPhases
variable {c : Config} {src out : List Byte} {s : State}

theorem Operating.freq_of_zeros (h : Operating c src .freq out s) (hzero : ∀ b ∈ src, b = 0#8) :
    ∃ t, Advances 1 s t ∧ Operating c src .build out t ∧ t.nodes = s.nodes := by
  obtain ⟨t, hloop, hframe⟩ := freqLoop_of_zeros (s.srclen.toNat - s.srcpos.toNat) s.srcpos.toNat
    (srcByte_of_zeros (h.srcBytes_eq ▸ hzero))
  have hexec : exec .freq s = .next (setPc .build t) := by rw [exec, execFreq, hloop, go_endPhase]
  have hanswers : AllAnswersTrue t := by rw [hframe]; exact h.answers
  have hwritten : Memory.bytes t.dst = out := by rw [hframe]; exact h.written
  obtain ⟨hadvance, hnext⟩ := h.handOn rfl hexec hanswers rfl hwritten
  exact ⟨_, hadvance, hnext, by rw [setPc_nodes, hframe]⟩

theorem Operating.build_of_start (h : Operating c src .build out s) (hnodes : s.nodes = initialNodes) :
    ∃ t, Advances 1 s t ∧ Operating c src .serialize out t ∧ t.nodes = initialNodes := by
  obtain ⟨hends, -⟩ := buildEndsOrExceedsCapacityAtOnce s
  have hexec := hends (by rw [hnodes]; decide) (by rw [hnodes]; exact activeBelow_initialNodes_length)
  obtain ⟨hadvance, hnext⟩ := h.handOn (j := .serialize) rfl hexec h.answers rfl h.written
  exact ⟨_, hadvance, hnext, hnodes⟩

/-- Without parents every code is empty (R152). -/
theorem Operating.codegen_of_start (h : Operating c src .codegen out s) (hnodes : s.nodes = initialNodes) :
    ∃ t, Advances 1 s t ∧ Operating c src .pack out t ∧ ∀ b : Byte, getCode t.code b = [] := by
  have hparent : ∀ i, i < 512 → getLink s.nodes.parent i = noNode := fun i hi => by
    rw [hnodes]
    exact parent_of_scannedTable scannedTable_initialNodes hi
  obtain ⟨t, hexec, hcodes⟩ := execCodegen_of_codes (f := fun _ => []) fun i hi =>
    codeOf_of_no_parent (hparent i (by omega))
  obtain ⟨cs, -, rfl⟩ := execCodegen_cases hexec
  obtain ⟨hadvance, hnext⟩ := h.handOn rfl hexec h.answers rfl h.written
  exact ⟨_, hadvance, hnext, hcodes⟩

/-- Empty codes leave the eight zero bits, one byte (R162). -/
theorem Operating.pack_of_empty_codes (h : Operating c src .pack out s) (hcodes : ∀ b : Byte, getCode s.code b = []) :
    ∃ t, Advances 1 s t ∧ Operating c src .finish (out ++ [0#8]) t := by
  obtain ⟨t, v, bits, hempty, hexec, hdst, hlen, hbits, -, -, hframe⟩ := packWritesThePayloadBits s h.answers
  obtain rfl : bits = [] := by simp [hempty, hcodes]
  obtain ⟨b, rfl⟩ := List.length_eq_one_iff.1 hlen
  obtain rfl : b = 0#8 := byteBits_eq_zeros (by simpa using hbits)
  have hanswers : AllAnswersTrue t :=
    allTrue_drop h.answers (congrArg State.answers hframe) (by rw [hframe])
  exact ⟨t, h.handOn rfl hexec hanswers (congrArg State.phase hframe) (hdst.trans (by rw [h.written]))⟩

/-- The five phases of Huffman mode write the block of INIT's table and one byte. -/
theorem Operating.encodeZeros (h : Operating c src .freq out s) (hnodes : s.nodes = initialNodes)
    (hzero : ∀ b ∈ src, b = 0#8) :
    ∃ t, Advances 5 s t ∧ Operating c src .finish (out ++ treeBlock c.width c.endian initialNodes ++ [0#8]) t := by
  obtain ⟨t1, ha1, h1, hnodes1⟩ := h.freq_of_zeros hzero
  obtain ⟨t2, ha2, h2, hnodes2⟩ := h1.build_of_start (hnodes1.trans hnodes)
  obtain ⟨t3, ha3, h3, -, hnodes3⟩ := h2.serialize
  rw [hnodes2] at h3 hnodes3
  obtain ⟨t4, ha4, h4, hcodes⟩ := h3.codegen_of_start hnodes3
  obtain ⟨t5, ha5, h5⟩ := h4.pack_of_empty_codes hcodes
  exact ⟨t5, (((ha1.trans ha2).trans ha3).trans ha4).trans ha5, h5⟩

/-- UNPACK over a table without a root takes the error before anything is written (R166). -/
theorem Operating.unpack_of_no_root (h : Operating c src .unpack out s) (hroot : s.nodes.root = noNode) :
    ∃ t, Advances 1 s t ∧ Operating c src .error out t ∧ t.errcode = 3#3 := by
  have hexec := unpackTestsTheRootFirst s (.inl (by rw [hroot]; decide))
  obtain ⟨hadvance, hnext⟩ := h.handOn rfl hexec h.answers rfl h.written
  exact ⟨_, hadvance, hnext, rfl⟩

end ZeroPhases

section ZeroCommands
variable {s : State} {bytes : List Byte}

/-- ARCHIVE of a long source of zero bytes: the header, the block of INIT's table, one byte. -/
theorem archive_zeros (hrest : s.status.busy = false) (hanswers : AllAnswersTrue s) (hlen : bytes.length < 2 ^ 64)
    (hlong : 512 * s.cfg.width.bytes < bytes.length) (hzero : ∀ b ∈ bytes, b = 0#8) :
    ∃ t, command 1#64 bytes s = .next t ∧
      Completed s.cfg (header s.cfg true ++ treeBlock s.cfg.width s.cfg.endian initialNodes ++ [0#8]) t := by
  obtain ⟨t0, hcommand, h0, hop⟩ := archive_starts hrest hanswers hlen
  obtain ⟨t1, ha1, h1, -, -, hnodes⟩ := h0.encodeHeader hop ((favorable_iff _ _).2 hlong)
  obtain ⟨t2, ha2, h2⟩ := Operating.encodeZeros h1 hnodes hzero
  obtain ⟨t3, ha3, hdone, -⟩ := h2.finish
  refine ⟨t3, ?_, hdone⟩
  rw [hcommand, ((ha1.trans ha2).trans ha3).steps_of_rest hdone.rests (by decide)]

/-- UNARCHIVE of a header with a flag and the block of a table without a root ends in the error of R166. -/
theorem unarchive_of_no_root {n : NodeTable} {rest : List Byte} (hidle : s.status.busy = false)
    (hanswers : AllAnswersTrue s) (htable : TableOk s.cfg.width n) (hroot : n.root = noNode)
    (hlen : (header s.cfg true ++ treeBlock s.cfg.width s.cfg.endian n ++ rest).length < 2 ^ 64) :
    ∃ t, command 2#64 (header s.cfg true ++ treeBlock s.cfg.width s.cfg.endian n ++ rest) s = .next t ∧
      t.phase = 18#5 ∧ t.errcode = 3#3 ∧ t.dst = [] := by
  obtain ⟨t0, hcommand, h0, hop⟩ := unarchive_starts hidle hanswers hlen
  rw [List.append_assoc] at h0
  obtain ⟨t1, ha1, h1, hpos1⟩ := h0.decodeHeader hop
  rw [← List.append_assoc] at h1
  obtain ⟨t2, ha2, h2, -, hsame⟩ := Operating.deserialize h1 (by rw [hpos1]; rfl) htable
  obtain ⟨t3, ha3, h3, herr⟩ := h2.unpack_of_no_root (hsame.root.trans hroot)
  have hrests : step t3 = .next t3 := h3.step_eq rfl
  refine ⟨t3, ?_, h3.phase, herr, List.map_eq_nil_iff.1 h3.written⟩
  rw [hcommand, ((ha1.trans ha2).trans ha3).steps_of_rest hrests (by decide)]

end ZeroCommands

/-- Settles O60: no byte is counted, so the archive holds INIT's table, which has no root. -/
theorem zeroOnlySourceCannotBeDecoded : Obligations.ZeroOnlySourceCannotBeDecoded := by
  intro s bytes hrest hanswers hlen hlong hzero
  obtain ⟨t, ht, hdone⟩ := archive_zeros hrest hanswers hlen hlong hzero
  have hwidth : t.cfg.width.bytes ≤ 8 := by cases t.cfg.width <;> decide
  have hfits : (header t.cfg true ++ treeBlock t.cfg.width t.cfg.endian initialNodes ++ [0#8]).length < 2 ^ 64 := by
    rw [List.length_append, List.length_append, header_length, treeBlock_length, List.length_singleton]
    omega
  obtain ⟨u, hu, hphase, herr, hdst⟩ :=
    unarchive_of_no_root hdone.notBusy hdone.answers (tableOk_initialNodes _) rfl hfits
  rw [hdone.cfg, ← hdone.written] at hu
  have hwritten := hdone.written
  rw [treeBlock_initialNodes] at hwritten
  exact ⟨t, u, ht, hdone.succeeded, hwritten, hu, hphase, herr, hdst⟩

end Sys2Proof.Machine

namespace Sys2Proof.Machine

/-! ### The registers while BUSY (R253, R41, R66) -/

/-- A free value between two ends, in either order, lies between them. -/
theorem between_mem (a b k : Nat) : min a b ≤ between a b k ∧ between a b k ≤ max a b := by
  rcases Nat.le_total a b with h | h
  · simpa [h] using between_bounds k h
  · rcases Nat.eq_or_lt_of_le h with rfl | hlt
    · simpa using between_bounds k (Nat.le_refl b)
    · have hmod : k % (a - b + 1) < a - b + 1 := Nat.mod_lt k (Nat.succ_pos _)
      rw [between, if_neg (Nat.not_le.2 hlt)]
      omega

theorem readReg_srcpos_of_busy {s : State} (h : s.status.busy = true) :
    ∃ k : Nat, readReg .srcpos s = BitVec.ofNat 64 k ∧
      min s.srcpos.toNat (afterPhase s).srcpos.toNat ≤ k ∧ k ≤ max s.srcpos.toNat (afterPhase s).srcpos.toNat :=
  ⟨_, by rw [readReg, if_pos h], between_mem _ _ _⟩

theorem readReg_dstlen_of_busy {s : State} (h : s.status.busy = true) :
    ∃ k : Nat, readReg .dstlen s = BitVec.ofNat 64 k ∧
      min s.dstlen.toNat (afterPhase s).dstlen.toNat ≤ k ∧ k ≤ max s.dstlen.toNat (afterPhase s).dstlen.toNat :=
  ⟨_, by rw [readReg, if_pos h], between_mem _ _ _⟩

theorem writeSrclen_of_busy (v : Size) {s : State} (h : s.status.busy = true) : writeSrclen v s = s := by
  simp [writeSrclen, h]

theorem visibleDst_of_busy {s : State} (h : s.status.busy = true) :
    visibleDst s = (afterPhase s).dst.take (arrivedBytes s) := by
  simp [visibleDst, Memory.firstBytes, h]

/-- Settles O9: a read is between the ends, a look shows what has arrived, a write is ignored. -/
theorem busyRegistersKeepToTheRule : Obligations.BusyRegistersKeepToTheRule := by
  intro s hbusy
  obtain ⟨p, hpos, hpos_mem⟩ := readReg_srcpos_of_busy hbusy
  obtain ⟨d, hlen, hlen_mem⟩ := readReg_dstlen_of_busy hbusy
  refine ⟨⟨p, ?_, hpos_mem⟩, ⟨d, ?_, hlen_mem⟩, fun v => ⟨?_, ?_⟩, fun a => ⟨_, ?_, arrivedBytes_bounds s⟩⟩
  · rw [hostEvent, hpos, latch]
  · rw [hostEvent, hlen, latch]
  · exact congrArg Host.Outcome.next (writeSrclen_of_busy v hbusy)
  · exact commandNotAcceptedChangesNothing s v (.inl hbusy)
  · rw [hostEvent, noteArrived_of_busy hbusy, readDstByte, visibleDst_of_busy hbusy, latch]

/-! ### Hardware reset (R240, R43) -/

/-- An abandoned operation leaves a number of the first bytes appended. -/
theorem abandonedDst_of_busy (f : FreeItem → Nat) {s : State} (h : s.status.busy = true) :
    ∃ k, k ≤ (afterPhase s).dst.length ∧ abandonedDst f s = (afterPhase s).dst.take k := by
  refine ⟨f .destination % ((afterPhase s).dst.length + 1), Nat.le_of_lt_succ (Nat.mod_lt _ (Nat.succ_pos _)), ?_⟩
  simp [abandonedDst, Memory.firstBytes, h]

/-- A reset leaves what belongs to the environment: the source, the parameters and the schedule. -/
theorem hardReset_environment (s : State) :
    (hardReset s).src = s.src ∧ (hardReset s).cfg = s.cfg ∧ (hardReset s).inputs = s.inputs := by
  simp only [hardReset, newDestination, unspecified, clearControl, and_self]

/-- Settles O10: the registers are cleared, and the destination left is the abandoned one's first bytes. -/
theorem hardwareResetClearsTheControlRegisters : Obligations.HardwareResetClearsTheControlRegisters := fun s =>
  ⟨hardReset s, rfl, hardReset_phase s, hardReset_op s, by rw [hardReset_status]; rfl, hardReset_errcode s, rfl, rfl,
    hardReset_dstlen s, hardReset_dst s, abandonedDst_of_busy _, hardReset_environment s⟩

end Sys2Proof.Machine

/-! SUPPORT. Proofs for the family 'other': the reset state (O54). The spec fixes the control registers of reset (R43);
the rest is the model's choice (log 3), and meets `DataOk` whatever IDXW is. -/

namespace Sys2Proof.Machine

/-! ### The reset state meets the invariant -/

theorem tableOk_blank (w : IdxWidth) : TableOk w NodeTable.blank where
  nextFreeRange := by decide
  leftFits := linksFit_replicate_noNode w
  rightFits := linksFit_replicate_noNode w
  parentFits := linksFit_replicate_noNode w
  rootFits := fitsIdx_of_small w (by decide) (by decide)

theorem getCode_replicate (c : List Bool) (b : Byte) : getCode (Vector.replicate 256 c) b = c := by
  rw [getCode, Vector.getElem?_replicate, if_pos b.isLt, Option.getD_some]

theorem dataOk_reset : DataOk State.reset :=
  { tableOk_blank State.reset.cfg.width with
    srcWf := wf_nil
    dstWf := wf_nil
    leftoverWf := wf_nil
    deliveredBound := le_rfl
    curFits := fitsIdx_of_small _ (by decide) (by decide)
    codeBound := fun b => by
      rw [State.reset, getCode_replicate, List.length_nil]
      exact Nat.zero_le 255
    nbqBound := by decide
    bufLength := List.length_replicate
    noLines := fun _ _ => List.not_mem_nil }

/-- Settles O54: the streams, the tables and the queues by `dataOk_reset`; the control registers are R43's fixed values,
those of the resting state IDLE. -/
theorem resetMeetsTheInvariant : Obligations.ResetMeetsTheInvariant :=
  { dataOk_reset with
    phaseLegal := by decide
    busyIff := by decide
    doneIff := by decide
    errIff := by decide
    errcodeIff := by decide
    errcodeLegal := by decide
    opLegal := by decide
    opWhileBusy := by decide
    huffCopy := by decide
    dstlenCounts := fun _ => .inl rfl
    deliveredAtRest := fun _ => rfl
    openIff := by decide }

end Sys2Proof.Machine
